-- ==== Sys2Proof/Word.lean ====
section
/-! DEFINITION. The word types of the W2 (R3, R186). Nothing here computes. -/

namespace Sys2Proof

/-- A quad, the width of a scalar register, a system register, an address and a bundle (R3, R186). -/
abbrev Word := BitVec 64

/-- A byte (R3). -/
abbrev Byte := BitVec 8

/-- A vector register (R186). -/
abbrev Vec := BitVec 512

/-- The number of a scalar register (R180, R186). -/
abbrev SReg := BitVec 5

/-- The number of a vector register (R186). -/
abbrev VReg := BitVec 5

/-- The number of a predicate register (R186). -/
abbrev PReg := BitVec 3

/-- A scalar floating-point type code, fn[4:3]: 0 F64, 1 F32, 2 BF16, 3 F16 (R182). -/
abbrev FTy := BitVec 2

/-- A type code fn[5:3]: 0 F64, 1 F32, 2 BF16, 3 F16, 4 I64, 5 I32, 6 I16, 7 I8 (R182). -/
abbrev VTy := BitVec 3

/-- A rounding-mode code (R105). -/
abbrev Rm := BitVec 3

end Sys2Proof
end

