-- ==== Sys2Proof/Syntax.lean ====
section
/-! DEFINITION. The syntax of the W2: one constructor for each row of the opcode table.

The first 217 kinds are syllables of bundles (R177 to R185). The others are the events of homes, engines,
barriers, the network, the MC and the hosts. An event carries as operands what names its object and what its
agent brings from outside (an address, bytes, a measured latency). -/

namespace Sys2Proof

/-- An instruction (a syllable of a bundle) or an event of the W2. -/
inductive Instr where
  /-- CNOP (R209). Does nothing; every field is ignored. -/
  | cnop
  /-- LI (R204). Loads a sign-extended 19-bit immediate into a scalar register. -/
  | li (d : SReg) (imm : BitVec 19)
  /-- LIX (R205). With h = 0, loads a sign-extended 50-bit value made of imm19[17:0] and the extension word. -/
  | lix (d : SReg) (imm : BitVec 50)
  /-- LIX_HI (R205). With h = 1, replaces the upper 32 bits of sd with the extension word. -/
  | lixHi (d : SReg) (ext : BitVec 32)
  /-- ADDI (R206). Adds a sign-extended 14-bit immediate to sa. -/
  | addi (d a : SReg) (imm : BitVec 14)
  /-- MOVP_TO_SCALAR (R207). Writes a predicate into a scalar register as 0 or 1. -/
  | movpToScalar (d : SReg) (a : PReg)
  /-- MOVP_TO_PRED (R207). Sets a predicate to sa not equal to 0. -/
  | movpToPred (d : PReg) (a : SReg)
  /-- MOVP_AND (R207). Writes the AND of two predicates. -/
  | movpAnd (d a b : PReg)
  /-- MOVP_OR (R207). Writes the OR of two predicates. -/
  | movpOr (d a b : PReg)
  /-- MOVP_XOR (R207). Writes the XOR of two predicates. -/
  | movpXor (d a b : PReg)
  /-- MOVP_NOT (R207). Writes the inverse of a predicate. -/
  | movpNot (d a : PReg)
  /-- GETSR (R333). Reads a system register, named by imm14, into sd. -/
  | getsr (d : SReg) (n : BitVec 14)
  /-- SETSR (R333). Writes sa to a system register field by field, with the timing of R193. -/
  | setsr (n : BitVec 14) (a : SReg)
  /-- INBOX_WRITE (R277). A write to INBOX size, base or en resets head and tail and discards the ring and the overflow area. -/
  | inboxWrite (slot : Nat) (v : Word)
  /-- BANKKEY_WRITE (R69). A write to BANKKEY is kept and takes effect at the partition's next switch-in. -/
  | bankkeyWrite (part : BitVec 4) (v : Word)
  /-- BR (R210). Branches unconditionally to pc + 8 × imm19. -/
  | br (imm : BitVec 19)
  /-- BRP (R211). Branches when the predicate differs from the inversion bit. -/
  | brp (p : PReg) (inv : Bool) (imm : BitVec 19)
  /-- CALL (R212). Branches and writes the link into s31. -/
  | call (imm : BitVec 19)
  /-- JR (R213). Jumps through a register plus a scaled offset, with an optional link. -/
  | jr (d a : SReg) (imm : BitVec 9)
  /-- LOOP (R215). Opens a hardware loop, or skips the body when the count is 0. -/
  | loop (d : SReg) (imm : BitVec 19)
  /-- YIELD (R217). Forms a switch point and leaves the slot READY. -/
  | yield
  /-- FUSE (R218). Joins the cores named in a mask into a gang, or sleeps until the gang forms or times out. -/
  | fuse (d a : SReg)
  /-- SPLIT (R218). Dissolves the issuer's gang. -/
  | split
  /-- TEND (R219). Ends the task after COMMEND, the implicit release and waiting for completions, or counts as a barrier arrival when an error bit is set. -/
  | tend
  /-- LD (R257). Loads 1, 2, 4 or 8 bytes at sa plus a scaled imm9. -/
  | ld (d a : SReg) (sz : BitVec 2) (u : Bool) (imm : BitVec 9)
  /-- LDX (R257). Loads 1 to 8 bytes at sa plus sb, optionally scaled. -/
  | ldx (d a b : SReg) (sz : BitVec 2) (u sc : Bool)
  /-- ST (R257). Stores 1 to 8 bytes at sa plus a scaled imm9, locally or as a log entry. -/
  | st (d a : SReg) (sz : BitVec 2) (imm : BitVec 9)
  /-- STX (R257). Stores 1 to 8 bytes at sa plus sb, optionally scaled. -/
  | stx (d a b : SReg) (sz : BitVec 2) (sc : Bool)
  /-- VLD (R260). Loads 64 RAW bytes, or 16 typed elements widened to FP32. -/
  | vld (d : VReg) (a : SReg) (cls : BitVec 2) (imm : BitVec 9)
  /-- VST (R260). Stores 64 RAW bytes, or 16 lanes narrowed to typed elements. -/
  | vst (d : VReg) (a : SReg) (cls : BitVec 2) (imm : BitVec 9)
  /-- VLDS (R261). Loads vector elements at a stride. -/
  | vlds (d : VReg) (a b : SReg) (q : Bool) (cls : BitVec 2)
  /-- VSTS (R261). Stores vector elements at a stride. -/
  | vsts (d : VReg) (a b : SReg) (q : Bool) (cls : BitVec 2)
  /-- VGATH (R261). Gathers elements at offsets held in vector lanes. -/
  | vgath (d : VReg) (a : SReg) (b : VReg) (q : Bool) (cls : BitVec 2)
  /-- VSCAT (R261). Scatters elements to offsets held in vector lanes. -/
  | vscat (d : VReg) (a : SReg) (b : VReg) (q : Bool) (cls : BitVec 2)
  /-- AMO_ADD (R263). Atomic add at the home bank; returns the old value. -/
  | amoAdd (d a b : SReg) (w : Bool)
  /-- AMO_SMIN (R263). Atomic signed minimum at the home bank. -/
  | amoSmin (d a b : SReg) (w : Bool)
  /-- AMO_SMAX (R263). Atomic signed maximum at the home bank. -/
  | amoSmax (d a b : SReg) (w : Bool)
  /-- AMO_UMIN (R263). Atomic unsigned minimum at the home bank. -/
  | amoUmin (d a b : SReg) (w : Bool)
  /-- AMO_UMAX (R263). Atomic unsigned maximum at the home bank. -/
  | amoUmax (d a b : SReg) (w : Bool)
  /-- AMO_AND (R263). Atomic AND at the home bank. -/
  | amoAnd (d a b : SReg) (w : Bool)
  /-- AMO_OR (R263). Atomic OR at the home bank. -/
  | amoOr (d a b : SReg) (w : Bool)
  /-- AMO_XOR (R263). Atomic XOR at the home bank. -/
  | amoXor (d a b : SReg) (w : Bool)
  /-- AMO_SWAP (R263). Atomic swap at the home bank. -/
  | amoSwap (d a b : SReg) (w : Bool)
  /-- AMO_CAS (R263). Atomic compare-and-swap against the expected value in sd. -/
  | amoCas (d a b : SReg) (w : Bool)
  /-- REL (R83). Waits until earlier entries are accepted or refused, then publishes up to the oldest refused entry. -/
  | rel (d : SReg)
  /-- RELF (R84). Performs REL, then atomically writes the writer id and pub to a flag word. -/
  | relf (d a : SReg)
  /-- ACQ (R86). Sleeps until the writer has published q, then replays its entries into the view. -/
  | acq (a b : SReg)
  /-- ACQF (R87). Sleeps on a flag word at its home, then acquires the writer and sequence found in it. -/
  | acqf (d a b : SReg)
  /-- ACQF_REREAD (R87). A sleeping ACQF re-reads its flag word on a RELF or atomic at the word, or after at most 1,024 cycles. -/
  | acqfReread (slot : Nat)
  /-- ACQR (R266). Drops the slot's view lines that overlap a byte range. -/
  | acqr (a b : SReg)
  /-- ACQR_ALL (R266). Drops every view line of the slot. -/
  | acqrAll
  /-- FENCE_CORE (R267). Returns a fence token of CORE scope. -/
  | fenceCore (d : SReg)
  /-- FENCE_DEVICE (R267). Returns a fence token of DEVICE scope. -/
  | fenceDevice (d : SReg)
  /-- FENCE_SYSTEM (R267). Returns a fence token of SYSTEM scope. -/
  | fenceSystem (d : SReg)
  /-- WAITF (R93). Sleeps until every access before the fence has performed at the token's scope. -/
  | waitf (a : SReg)
  /-- RECLAIM (R79). Forces crystallisation of the slot's entries below a sequence, without blocking. -/
  | reclaim (a : SReg)
  /-- LOGQ_STAT (R269). Reports the state and reason of one log entry. -/
  | logqStat (d a : SReg)
  /-- LOGQ_TAIL (R269). Reports the sequence of the last appended entry. -/
  | logqTail (d : SReg)
  /-- LOGQ_VOID (R269). Voids a refused entry (supervisor only). -/
  | logqVoid (d a : SReg)
  /-- LOGQ_RESEND (R269). Sends a refused entry again (supervisor only). -/
  | logqResend (d a : SReg)
  /-- PREF (R270). Hints a translation and row warm-up; never traps and never changes a value. -/
  | pref (a : SReg) (imm : BitVec 14)
  /-- CPY (R286). Checks a copy descriptor and starts a copy in the copy unit. -/
  | cpy (d a : SReg)
  /-- CPYQ (R291). Reports the state of one of the slot's copies. -/
  | cpyq (d a : SReg)
  /-- SEND (R275). Queues a message of 32 to 256 bytes to an endpoint, or returns 0 when the send queue is full. -/
  | send (d a b : SReg) (len : BitVec 3)
  /-- RECV (R283). Sleeps until the inbox holds a record, then reports its offset. -/
  | recv (d : SReg)
  /-- POLL (R283). Reports the offset of the head record, or all ones when the inbox is empty. -/
  | poll (d : SReg)
  /-- DEQ (R284). Consumes the head record, loading MSGLAT, dropping view lines or changing the charge as its kind requires. -/
  | deq (d : SReg)
  /-- EPN (R274). Builds the issuer's own endpoint. -/
  | epn (d : SReg)
  /-- EPN_C (R274). Builds the endpoint of a task in the issuer's group from its coordinate. -/
  | epnC (d a : SReg)
  /-- EPN_L (R274). Builds the partition's launch endpoint. -/
  | epnL (d : SReg)
  /-- CHKERR (R160). Writes the slot's CHKINT to sd. -/
  | chkerr (d : SReg)
  /-- BAR (R154). Brings the member to its group's barrier without taking part in a communication phase. -/
  | bar (d : SReg)
  /-- BAR_C (R292). Brings the member to its barrier as a participant in the communication phase. -/
  | barC (d : SReg)
  /-- BARGEN (R293). Reads a barrier group's generation. -/
  | bargen (d a : SReg)
  /-- BARWAIT (R293). Sleeps until a group's generation has passed a value. -/
  | barwait (a b : SReg)
  /-- TTLOAD (R294). Copies timetable entries from the scratchpad into the core's timetable. -/
  | ttload (a b : SReg)
  /-- TSEND (R295). Sends timetabled flits on a route entry, holding the slot until offset t. -/
  | tsend (a b : SReg)
  /-- FLIT_DEPARTURE (R169). When its offset t comes, a held TSEND sends flit k in cycle t + k. -/
  | flitDeparture (core : Nat)
  /-- TRECV (R296). Opens a receive window on a port. -/
  | trecv (a b : SReg)
  /-- COMMEND (R174). Waits for the slot's windows, flits and drop notices, then ends the phase. -/
  | commend (d : SReg)
  /-- MTRX (R298). Runs a timed all-to-all transpose among the cores of one cluster. -/
  | mtrx (d a b : SReg)
  /-- MQ (R309). Checks a job descriptor and queues a matrix job for the block's engine. -/
  | mq (d a : SReg)
  /-- MPOLL (R316). Reports the state of one of the slot's jobs. -/
  | mpoll (d a : SReg)
  /-- MWAIT (R317). Sleeps until the completion of a job has been posted. -/
  | mwait (a : SReg)
  /-- ACCLD (R318). Copies accumulator cells into the scratchpad, converting them to type T. -/
  | accld (a b : SReg) (t : BitVec 3) (rm : Rm)
  /-- ACCST (R318). Copies scratchpad elements into accumulator cells, widening them. -/
  | accst (a b : SReg) (t : BitVec 3) (rm : Rm)
  /-- MBIND (R321). Binds to the layer's CURRENT version and returns its handle. -/
  | mbind (d a : SReg)
  /-- MVER (R322). Reads a snapshot of a layer's version ring. -/
  | mver (d a : SReg)
  /-- MUNBIND (R323). Releases a handle and decrements its version's bound count. -/
  | munbind (a : SReg)
  /-- MRESET (R324). Marks a layer for reset and waits until its work is done; the reset is applied at the next barrier. -/
  | mreset (a : SReg)
  /-- MUPD (R325). Submits one part's share of a mask update, or an install, to a mask engine. -/
  | mupd (d a : SReg)
  /-- MHIST (R326). Asks a mask engine for a drop or grow key histogram. -/
  | mhist (d a : SReg)
  /-- TRAP (R341). Raises cause TRAP with TRAPADDR set to sa. -/
  | trap (a : SReg)
  /-- GKILL (R342). Kills a task group of the partition from a handler. -/
  | gkill (d a : SReg)
  /-- ERET (R343). Returns from a handler to TRAPPC and restores the signature accumulator. -/
  | eret
  /-- SIGCHK (R346). Compares the signature accumulator with a value, sets sigmis on a mismatch and resets the accumulator. -/
  | sigchk (imm : BitVec 16)
  /-- TINV (R347). Invalidates the context's translations over a range and waits for the walks begun before it. -/
  | tinv (a b : SReg)
  /-- TINV_ALL (R347). Invalidates every translation of the context. -/
  | tinvAll
  /-- C_HINT (R185). C majors 0x3D to 0x3F execute as no-ops. -/
  | cHint (maj : BitVec 6) (bits : BitVec 24)
  /-- ADD (R196). 64-bit wrapping add. -/
  | add (d a b : SReg)
  /-- SUB (R196). 64-bit wrapping subtract. -/
  | sub (d a b : SReg)
  /-- MUL (R196). Low 64 bits of the product. -/
  | mul (d a b : SReg)
  /-- MULHS (R196). Upper 64 bits of the signed product. -/
  | mulhs (d a b : SReg)
  /-- MULHU (R196). Upper 64 bits of the unsigned product. -/
  | mulhu (d a b : SReg)
  /-- DIV (R197). Signed division truncated toward zero, with fixed results for a zero divisor and for overflow. -/
  | div (d a b : SReg)
  /-- DIVU (R197). Unsigned division. -/
  | divu (d a b : SReg)
  /-- REM (R197). Signed remainder. -/
  | rem (d a b : SReg)
  /-- REMU (R197). Unsigned remainder. -/
  | remu (d a b : SReg)
  /-- AND (R198). Bitwise AND. -/
  | and (d a b : SReg)
  /-- OR (R198). Bitwise OR. -/
  | or (d a b : SReg)
  /-- XOR (R198). Bitwise XOR. -/
  | xor (d a b : SReg)
  /-- ANDN (R198). sa AND NOT sb. -/
  | andn (d a b : SReg)
  /-- ORN (R198). sa OR NOT sb. -/
  | orn (d a b : SReg)
  /-- XNOR (R198). NOT (sa XOR sb). -/
  | xnor (d a b : SReg)
  /-- SHL (R198). Shift left by sb[5:0], filling with zeros. -/
  | shl (d a b : SReg)
  /-- SHR (R198). Logical shift right. -/
  | shr (d a b : SReg)
  /-- SRA (R198). Arithmetic shift right. -/
  | sra (d a b : SReg)
  /-- ROL (R198). Rotate left. -/
  | rol (d a b : SReg)
  /-- SMIN (R198). Signed minimum. -/
  | smin (d a b : SReg)
  /-- SMAX (R198). Signed maximum. -/
  | smax (d a b : SReg)
  /-- UMIN (R198). Unsigned minimum. -/
  | umin (d a b : SReg)
  /-- UMAX (R198). Unsigned maximum. -/
  | umax (d a b : SReg)
  /-- CLZ (R199). Counts leading zero bits. -/
  | clz (d a : SReg)
  /-- CTZ (R199). Counts trailing zero bits. -/
  | ctz (d a : SReg)
  /-- POPC (R199). Counts set bits. -/
  | popc (d a : SReg)
  /-- BREV (R199). Reverses the bits. -/
  | brev (d a : SReg)
  /-- BSWAP (R199). Reverses the bytes. -/
  | bswap (d a : SReg)
  /-- CMP_EQ (R200). Sets a predicate when sa equals sb. -/
  | cmpEq (d : PReg) (a b : SReg)
  /-- CMP_NE (R200). Sets a predicate when sa differs from sb. -/
  | cmpNe (d : PReg) (a b : SReg)
  /-- CMP_LT (R200). Signed less-than compare into a predicate. -/
  | cmpLt (d : PReg) (a b : SReg)
  /-- CMP_LE (R200). Signed less-or-equal compare into a predicate. -/
  | cmpLe (d : PReg) (a b : SReg)
  /-- CMP_LTU (R200). Unsigned less-than compare into a predicate. -/
  | cmpLtu (d : PReg) (a b : SReg)
  /-- CMP_LEU (R200). Unsigned less-or-equal compare into a predicate. -/
  | cmpLeu (d : PReg) (a b : SReg)
  /-- SEL (R201). Selects sa or sb by the destination register's own value. -/
  | sel (d a b : SReg)
  /-- BFX (R202). Extracts a bitfield, optionally sign-extended. -/
  | bfx (d a b : SReg)
  /-- BFI (R202). Inserts a bitfield into sd. -/
  | bfi (d a b : SReg)
  /-- ADDA (R203). Adds an offset to an address, keeping the device and region fields. -/
  | adda (d a b : SReg)
  /-- FADD (R223). Floating-point add rounded under rm. -/
  | fadd (t : FTy) (d a b : SReg) (rm : Rm)
  /-- FSUB (R223). Floating-point subtract. -/
  | fsub (t : FTy) (d a b : SReg) (rm : Rm)
  /-- FMUL (R223). Floating-point multiply. -/
  | fmul (t : FTy) (d a b : SReg) (rm : Rm)
  /-- FFMA (R223). Fused multiply-add onto sd with one rounding. -/
  | ffma (t : FTy) (d a b : SReg) (rm : Rm)
  /-- FDIV (R223). Correctly rounded division. -/
  | fdiv (t : FTy) (d a b : SReg) (rm : Rm)
  /-- FSQRT (R223). Correctly rounded square root. -/
  | fsqrt (t : FTy) (d a : SReg) (rm : Rm)
  /-- FMIN (R224). IEEE minimum, propagating NaN. -/
  | fmin (t : FTy) (d a b : SReg)
  /-- FMAX (R224). IEEE maximum, propagating NaN. -/
  | fmax (t : FTy) (d a b : SReg)
  /-- FMINN (R224). minimumNumber. -/
  | fminn (t : FTy) (d a b : SReg)
  /-- FMAXN (R224). maximumNumber. -/
  | fmaxn (t : FTy) (d a b : SReg)
  /-- FCMP_EQ (R225). Float equal compare into a predicate. -/
  | fcmpEq (t : FTy) (d : PReg) (a b : SReg)
  /-- FCMP_NE (R225). Float not-equal or unordered compare into a predicate. -/
  | fcmpNe (t : FTy) (d : PReg) (a b : SReg)
  /-- FCMP_LT (R225). Float less-than compare into a predicate. -/
  | fcmpLt (t : FTy) (d : PReg) (a b : SReg)
  /-- FCMP_LE (R225). Float less-or-equal compare into a predicate. -/
  | fcmpLe (t : FTy) (d : PReg) (a b : SReg)
  /-- FCMP_UN (R225). True when either operand is NaN. -/
  | fcmpUn (t : FTy) (d : PReg) (a b : SReg)
  /-- FCMP_ORD (R225). True when neither operand is NaN. -/
  | fcmpOrd (t : FTy) (d : PReg) (a b : SReg)
  /-- FCVT (R226). Converts between types, signed integers included. -/
  | fcvt (t s : VTy) (d a : SReg) (rm : Rm)
  /-- FCVTU (R226). Converts with integer types read and written as unsigned. -/
  | fcvtu (t s : VTy) (d a : SReg) (rm : Rm)
  /-- FCLASS (R227). Sets one bit of sd for the operand's class. -/
  | fclass (t : FTy) (d a : SReg)
  /-- FABS (R228). Clears the sign bit. -/
  | fabs (t : FTy) (d a : SReg)
  /-- FNEG (R228). Inverts the sign bit. -/
  | fneg (t : FTy) (d a : SReg)
  /-- FCPSGN (R228). Copies sb's sign onto sa. -/
  | fcpsgn (t : FTy) (d a b : SReg)
  /-- EXP2 (R229). Base-2 exponential. -/
  | exp2 (t : FTy) (d a : SReg)
  /-- LOG2 (R229). Base-2 logarithm. -/
  | log2 (t : FTy) (d a : SReg)
  /-- SIN (R229). Sine. -/
  | sin (t : FTy) (d a : SReg)
  /-- COS (R229). Cosine. -/
  | cos (t : FTy) (d a : SReg)
  /-- TANH (R229). Hyperbolic tangent. -/
  | tanh (t : FTy) (d a : SReg)
  /-- RCP (R229). Reciprocal. -/
  | rcp (t : FTy) (d a : SReg)
  /-- RSQ (R229). Reciprocal square root. -/
  | rsq (t : FTy) (d a : SReg)
  /-- VADD (R230). Lane-wise add. -/
  | vadd (t : VTy) (d a b : VReg) (rm : Rm)
  /-- VSUB (R230). Lane-wise subtract. -/
  | vsub (t : VTy) (d a b : VReg) (rm : Rm)
  /-- VMUL (R230). Lane-wise multiply. -/
  | vmul (t : VTy) (d a b : VReg) (rm : Rm)
  /-- VFMA (R230). Lane-wise fused multiply-add onto vd. -/
  | vfma (t : VTy) (d a b : VReg) (rm : Rm)
  /-- VMIN (R231). Lane-wise minimum. -/
  | vmin (t : VTy) (d a b : VReg)
  /-- VMAX (R231). Lane-wise maximum. -/
  | vmax (t : VTy) (d a b : VReg)
  /-- VAND (R232). 512-bit AND. -/
  | vand (d a b : VReg)
  /-- VOR (R232). 512-bit OR. -/
  | vor (d a b : VReg)
  /-- VXOR (R232). 512-bit XOR. -/
  | vxor (d a b : VReg)
  /-- VANDN (R232). 512-bit AND NOT. -/
  | vandn (d a b : VReg)
  /-- VORN (R232). 512-bit OR NOT. -/
  | vorn (d a b : VReg)
  /-- VXNOR (R232). 512-bit XNOR. -/
  | vxnor (d a b : VReg)
  /-- VSHL (R233). Lane-wise shift left. -/
  | vshl (t : BitVec 2) (d a b : VReg)
  /-- VSHR (R233). Lane-wise logical shift right. -/
  | vshr (t : BitVec 2) (d a b : VReg)
  /-- VSRA (R233). Lane-wise arithmetic shift right. -/
  | vsra (t : BitVec 2) (d a b : VReg)
  /-- VROL (R233). Lane-wise rotate left. -/
  | vrol (t : BitVec 2) (d a b : VReg)
  /-- VCMP_EQ (R234). Lane-wise equal compare to a mask. -/
  | vcmpEq (t : VTy) (d a b : VReg)
  /-- VCMP_NE (R234). Lane-wise not-equal compare to a mask. -/
  | vcmpNe (t : VTy) (d a b : VReg)
  /-- VCMP_LT (R234). Lane-wise less-than compare, signed for integer lanes. -/
  | vcmpLt (t : VTy) (d a b : VReg)
  /-- VCMP_LE (R234). Lane-wise less-or-equal compare, signed for integer lanes. -/
  | vcmpLe (t : VTy) (d a b : VReg)
  /-- VCMP_UN_LTU (R234). Unordered for float lanes, unsigned less-than for integer lanes. -/
  | vcmpUnLtu (t : VTy) (d a b : VReg)
  /-- VCMP_ORD_LEU (R234). Ordered for float lanes, unsigned less-or-equal for integer lanes. -/
  | vcmpOrdLeu (t : VTy) (d a b : VReg)
  /-- VSEL (R235). Lane-wise select on vd's lane bits. -/
  | vsel (t : VTy) (d a b : VReg)
  /-- VCVT (R236). Lane-wise conversion of one part of a vector. -/
  | vcvt (t s : VTy) (q : BitVec 3) (d a : VReg) (rm : Rm)
  /-- VCVTU (R236). Lane-wise conversion with unsigned integer lanes. -/
  | vcvtu (t s : VTy) (q : BitVec 3) (d a : VReg) (rm : Rm)
  /-- VEXP2 (R237). Lane-wise exp2. -/
  | vexp2 (t : FTy) (d a : VReg)
  /-- VLOG2 (R237). Lane-wise log2. -/
  | vlog2 (t : FTy) (d a : VReg)
  /-- VSIN (R237). Lane-wise sine. -/
  | vsin (t : FTy) (d a : VReg)
  /-- VCOS (R237). Lane-wise cosine. -/
  | vcos (t : FTy) (d a : VReg)
  /-- VTANH (R237). Lane-wise tanh. -/
  | vtanh (t : FTy) (d a : VReg)
  /-- VRCP (R237). Lane-wise reciprocal. -/
  | vrcp (t : FTy) (d a : VReg)
  /-- VRSQ (R237). Lane-wise reciprocal square root. -/
  | vrsq (t : FTy) (d a : VReg)
  /-- VRED_SUM (R238). Pairwise-tree sum of the lanes. -/
  | vredSum (t : VTy) (d a : VReg) (rm : Rm)
  /-- VRED_MIN (R238). Pairwise-tree minimum of the lanes. -/
  | vredMin (t : VTy) (d a : VReg)
  /-- VRED_MAX (R238). Pairwise-tree maximum of the lanes. -/
  | vredMax (t : VTy) (d a : VReg)
  /-- VSHUF (R239). Shuffles lanes from va and vd by the indices in vb. -/
  | vshuf (t : VTy) (d a b : VReg)
  /-- VBCAST (R240). Broadcasts a scalar into every lane. -/
  | vbcast (t : VTy) (d : VReg) (a : SReg)
  /-- VINS (R240). Inserts a scalar into one lane. -/
  | vins (t : VTy) (d : VReg) (a b : SReg)
  /-- VEXT (R240). Extracts one lane into a scalar. -/
  | vext (t : VTy) (d : SReg) (a : VReg) (b : SReg)
  /-- VRNG_I32 (R241). Draws 16 raw Philox words indexed by element. -/
  | vrngI32 (d : VReg) (a b : SReg)
  /-- VRNG_F32 (R241). Draws 16 uniform FP32 values indexed by element. -/
  | vrngF32 (d : VReg) (a b : SReg)
  /-- VDROP (R242). Applies dropout with keep threshold K and rescaling. -/
  | vdrop (d a : VReg) (b : SReg) (rm : Rm)
  /-- VQUANT_E4M3 (R243). Quantises 32 lanes into an MXE4M3 block. -/
  | vquantE4m3 (d a b : VReg) (rm : Rm)
  /-- VQUANT_E5M2 (R243). Quantises 32 lanes into an MXE5M2 block. -/
  | vquantE5m2 (d a b : VReg) (rm : Rm)
  /-- VQUANT_INT8 (R243). Quantises 32 lanes into an MXINT8 block. -/
  | vquantInt8 (d a b : VReg) (rm : Rm)
  /-- VDEQ_E4M3 (R244). Dequantises half of an MXE4M3 block to FP32. -/
  | vdeqE4m3 (d a : VReg) (h : Bool) (rm : Rm)
  /-- VDEQ_E5M2 (R244). Dequantises half of an MXE5M2 block to FP32. -/
  | vdeqE5m2 (d a : VReg) (h : Bool) (rm : Rm)
  /-- VDEQ_INT8 (R244). Dequantises half of an MXINT8 block to FP32. -/
  | vdeqInt8 (d a : VReg) (h : Bool) (rm : Rm)
  /-- VGAB (R246). Adds 16 contributions into a GAB in the scratchpad. -/
  | vgab (d : VReg) (a b : SReg)
  /-- VGABR (R247). Rounds 16 GAB elements to FP32. -/
  | vgabr (d : VReg) (a b : SReg) (rm : Rm)
  /-- VABF (R249). Packs lanes into one part of an ABF block at the agreed exponent. -/
  | vabf (t : FTy) (d : VReg) (a b : SReg)
  /-- VABFADD (R250). Adds two ABF blocks lane by lane as integers. -/
  | vabfadd (abf64 : Bool) (d a b : SReg)
  /-- VABFX (R251). Extracts ABF lanes with the single rounding of the reduction. -/
  | vabfx (t : FTy) (d : VReg) (a b : SReg) (rm : Rm)
  /-- VEXPMAX (R248). Gives the largest exponent over the finite nonzero lanes. -/
  | vexpmax (t : FTy) (d : SReg) (a : VReg)
  /-- A_HINT (R185). A major 0x3F executes as a no-op. -/
  | aHint (bits : BitVec 24)
  /-- STREFUSED (R90). A posted store fault is taken as an asynchronous trap at the next instruction boundary. -/
  | strefused (slot : Nat)
  /-- LAUNCH_MESSAGE (R32). The launch endpoint takes a launch message, checks it, and accepts or refuses it with a status record. -/
  | launchMessage (part : BitVec 4)
  /-- TASK_START (R38). A free slot is offered to the launch queues, and the leading eligible task starts in its start state. -/
  | taskStart (slot : Nat)
  /-- SLOT_WAKE (R42). The condition of a sleeping slot comes to hold, and the slot becomes READY. -/
  | slotWake (slot : Nat)
  /-- WATCHDOG_FORCED_SWITCH (R44). The watchdog count reaches 2^wdexp, forcing a switch and counting wdevt. -/
  | watchdogForcedSwitch (slot : Nat)
  /-- FUSE_TIMEOUT (R47). 2^16 cycles pass without the gang forming, and FUSE writes 0. -/
  | fuseTimeout (slot : Nat)
  /-- ENTRY_ACCEPTANCE (R76). A home NI translates and checks a sent log entry and marks it ACCEPTED or REFUSED. -/
  | entryAcceptance (slot seq : Nat)
  /-- CRYSTALLISATION (R77). A home writes an accepted entry's bytes through the journal. -/
  | crystallisation (slot seq : Nat)
  /-- BARRIER (R155). On the last arrival, the barrier drains, checks, restores or changes versions, and quarantines. -/
  | barrier (part bgrp : BitVec 4)
  /-- SETTLE_LIMIT (R155). Settling reaches 256 cycles, poison is set in unsettled participants and the release goes ahead. -/
  | settleLimit (part bgrp : BitVec 4)
  /-- BARRIER_RELEASE (R156). Members resume when their district counter reads T0. -/
  | barrierRelease (part bgrp : BitVec 4) (slack : Nat)
  /-- PHASE_LIMIT (R167). A participant reaching offset 2^20 without COMMEND has its phase ended and ttlate set. -/
  | phaseLimit (slot : Nat)
  /-- FLIT_ARRIVAL (R173). A timetabled flit reaches a port and is written, dropped or collides. -/
  | flitArrival (core index : Nat)
  /-- TRECV_WINDOW_CLOSE (R173). A receive window reaches the end of its width and closes. -/
  | trecvWindowClose (core index : Nat)
  /-- DROP_NOTICE (R173). A drop notice returns to the sending core and sets ttmiss in the sender. -/
  | dropNotice (core : Nat)
  /-- MESSAGE_DELIVERY (R276). A message is routed, followed through stubs, and written into the target inbox or overflow area. -/
  | messageDelivery (core index lat : Nat)
  /-- UNDELIVERABLE_NOTICE (R276). An undeliverable message is returned to its sender as a notice. -/
  | undeliverableNotice (core index : Nat)
  /-- CHUNK_RECORD (R288). Once a 4 KiB chunk is at home, a chunk record is posted to the notify endpoint. -/
  | chunkRecord (slot id chunk : Nat)
  /-- COPY_COMPLETION (R289). The copy finishes or faults, and its completion is posted to the issuer's inbox. -/
  | copyCompletion (slot id : Nat)
  /-- JOB_START (R310). The matrix engine starts the next job in its round-robin service of the core queues. -/
  | jobStart (lcol : Nat)
  /-- JOB_COMPLETION (R314). A matrix job finishes or faults, and its completion record is posted. -/
  | jobCompletion (lcol : Nat)
  /-- MASK_SHARE_COMPLETION (R151). A part's share of an update or install completes, possibly making the version READY. -/
  | maskShareCompletion (slot id : Nat)
  /-- MHIST_COMPLETION (R326). A histogram request is written and its completion is posted. -/
  | mhistCompletion (slot id : Nat)
  /-- RETIREMENT_CLEANED (R148). The engine finishes clearing the hold bits and freed RIDs of a RETIRED slot, which becomes FREE. -/
  | retirementCleaned (part : BitVec 4) (layer : BitVec 12) (rslot : BitVec 2)
  /-- MASK_ENGINE_RETRY (R449). A mask engine stalled on PAGE or PROT re-reads the page after a TINV or every 2^20 cycles. -/
  | maskEngineRetry (part : BitVec 4) (layer : BitVec 12) (rslot : BitVec 2)
  /-- WALK_RETRY (R412). A walk stalled on MIG reads its entry again after a TINV or every 1,024 cycles. -/
  | walkRetry (slot : Nat)
  /-- REPLAY (R194). A shadow latch catches a late transition and the bundle is replayed after a 7-cycle stall. The bundle
  is given by its address, after whether the mismatch is one that the MC is asked to force on it (R384). -/
  | replay (core : Nat) (bundle : Bool × Word)
  /-- REPLAY_PERIOD (R430). A new 2^21-cycle TIME period begins, and the offset-0 replay count returns to 0. -/
  | replayPeriod (core : Nat)
  /-- RECEIVE_PARITY_ERROR (R427). A parity error on a receive latch delivers poison and sets CHKINT.poison. The data is
  given by the receiving slot, its scratchpad offset and its length. -/
  | receiveParityError (data : Nat × Nat × Nat)
  /-- SOFT_ERROR_CORRECTED (R432). A SECDED correction is counted, with no visible effect. -/
  | softErrorCorrected
  /-- UNCORRECTABLE_ERROR (R432). An uncorrectable error marks its 64-byte line as poison. The line is given by the kind
  of its store and two numbers there. -/
  | uncorrectableError (place : BitVec 2 × Nat × Nat)
  /-- VBUS_PARITY_FAILURE (R433). A vertical-bus transfer fails parity and is repeated, or the column is declared lost on the third failure. -/
  | vbusParityFailure (lcol repeats : Nat)
  /-- CXL_MEM_READ (R387). A host CXL.mem read returns the home's raw bytes, with poison indicated where present. -/
  | cxlMemRead (port : BitVec 3) (addr len : Nat)
  /-- CXL_MEM_WRITE (R387). A host CXL.mem write goes straight to home, or is dropped when it does not come from the owner. -/
  | cxlMemWrite (port : BitVec 3) (addr : Nat) (bytes : List Byte)
  /-- REGISTER_WRITE (R388). A write to a BAR0 register that has no row of its own is stored or dropped. The register is
  given by whether it stands in configuration space, and its offset. -/
  | registerWrite (port : BitVec 3) (register : Bool × Nat) (bytes : List Byte)
  /-- LDOOR (R399). A write to LDOOR submits the launch page's message to the launch endpoint. -/
  | ldoor (port : BitVec 3) (part : BitVec 4)
  /-- CLAIM (R390). An OWNCTL CLAIM makes the writing port owner when the device has none. -/
  | claim (port : BitVec 3)
  /-- RELEASE (R390). An OWNCTL RELEASE from the owner leaves the device unowned. -/
  | release (port : BitVec 3)
  /-- HANDOVER (R390). An OWNCTL HANDOVER from the owner makes a handover to another port pending. -/
  | handover (port target : BitVec 3)
  /-- ACCEPT (R390). An OWNCTL ACCEPT from the target port completes a pending handover. -/
  | accept (port : BitVec 3)
  /-- HANDOVER_LAPSE (R390). A handover not accepted within 100 ms lapses. -/
  | handoverLapse
  /-- OWNER_LINK_LOSS (R391). The owner's link stays down for 1 s, and the device becomes unowned. -/
  | ownerLinkLoss
  /-- PCREATE (R394). Creates a partition in a defined state. -/
  | pcreate (port : BitVec 3)
  /-- PDESTROY (R393). Kills a partition's groups, drains it and frees its clusters. -/
  | pdestroy (port : BitVec 3)
  /-- PINFO (R393). Returns a partition's creation request and live group count. -/
  | pinfo (port : BitVec 3)
  /-- FWSTAGE (R401). Verifies and stages a firmware image: what the signature check says of the signature, the security
  version of the image, and the digest of the image that was signed. -/
  | fwstage (port : BitVec 3) (verdict : Nat) (version : BitVec 64) (digest : BitVec 256)
  /-- PDEVMAP (R396). Replaces a partition's device map. -/
  | pdevmap (port : BitVec 3)
  /-- SLOTREG (R397). Writes a system register of free slots, of cores or of the context. -/
  | slotreg (port : BitVec 3)
  /-- GKILL_COMMAND (R398). The host kills a task group and waits until its slots are free. -/
  | gkillCommand (port : BitVec 3)
  /-- PSWITCH_CHECKPOINT (R416). Switches a partition out and back in once the save is complete. -/
  | pswitchCheckpoint (port : BitVec 3)
  /-- PSWITCH_OUT (R416). Switches a partition out until PRESUME. -/
  | pswitchOut (port : BitVec 3)
  /-- PRESUME (R416). Restores a partition that is out. -/
  | presume (port : BitVec 3)
  /-- PSLICE (R425). Sets or stops a standing checkpoint slice. -/
  | pslice (port : BitVec 3)
  /-- FWACTIVATE (R447). Arranges for the staged image to boot at the next module reset. -/
  | fwactivate (port : BitVec 3)
  /-- TELEM (R439). Returns module telemetry. -/
  | telem (port : BitVec 3)
  /-- MSTAT (R440). Returns the margin state of a column's cores. -/
  | mstat (port : BitVec 3)
  /-- MLOG (R441). Returns 16 margin-log events. -/
  | mlog (port : BitVec 3)
  /-- HMAP (R442). Returns 64 harvest-map words. -/
  | hmap (port : BitVec 3)
  /-- QREC (R443). Returns 8 quarantine records. -/
  | qrec (port : BitVec 3)
  /-- SPPR (R444). Holds a channel's traffic and repairs one row with a soft spare. -/
  | sppr (port : BitVec 3)
  /-- HPPR (R445). Queues a hard repair of a row for the next reset. -/
  | hppr (port : BitVec 3)
  /-- PWRLIM (R446). Sets or removes the module power cap. -/
  | pwrlim (port : BitVec 3)
  /-- BADCMD (R393). A mailbox command code that no command defines completes with BADCMD. -/
  | badcmd (port : BitVec 3)
  /-- DOE_DISCOVERY (R403). Serves DOE discovery on any port. -/
  | doeDiscovery (port : BitVec 3)
  /-- GETCERT (R403). Returns the device certificate chain. -/
  | getcert (port : BitVec 3)
  /-- GETREPORT (R403). Returns a signed attestation report over a nonce. -/
  | getreport (port : BitVec 3) (nonce : BitVec 256)
  /-- SWITCH_OUT (R420). At Ts the partition's cores stop, and views, engines and packets are saved into the image. -/
  | switchOut (part : BitVec 4)
  /-- SWITCH_IN (R422). The image is checked and restored, and the cores resume at Tr. -/
  | switchIn (part : BitVec 4)
  /-- SLICE_EXPIRY (R425). A partition that has run its slice is checkpointed. -/
  | sliceExpiry (part : BitVec 4)
  /-- POWER_CLOCK_STEP (R446). Each millisecond the clock is lowered or raised by 25 MHz against the cap and the temperature. -/
  | powerClockStep
  /-- THERMAL_SHUTDOWN (R446). Above 115 °C every task group is killed and every core stopped. -/
  | thermalShutdown
  /-- MODULE_RESET (R447). The module resets, applies hard repairs, boots the staged firmware and ends every partition. -/
  | moduleReset
  /-- CORE_SETTLED (R431). Every participant's core has settled at offset 0, so step 6 of the barrier ends and T0 can be chosen.
  The participant is given by its barrier group and its slot. -/
  | coreSettled (part : BitVec 4) (participant : BitVec 4 × Nat)
  /-- LINK_DOWN (R391). A host port's CXL link goes down, starting the 1 s owner-loss timer and causing MSI-X events for that port to be dropped. -/
  | linkDown (port : BitVec 3)
  /-- LINK_UP (R385). A host port's link trains and comes up, cancelling a pending owner-loss wait and making the port able to claim and receive vectors. -/
  | linkUp (port : BitVec 3)
  /-- DEVICE_ACCESS_ARRIVAL (R54). A load, atomic, copy write or other access from another device arrives on an edge link and is performed at its home here. -/
  | deviceAccessArrival (kind : BitVec 2) (addr : Word) (bytes : List Byte)
  deriving DecidableEq, Repr

end Sys2Proof
end

