-- ==== Sys2Proof/Decode.lean ====
section
/-! DEFINITION. The decoder of bundles and syllables (R177 to R185 and the encoding tables R195, R220, R252, R271,
R299, R331), total on any bytes and refusing by name, and after it the encoder. -/

namespace Sys2Proof

/-- Why the decoder refuses a bundle; each of them raises ILLEGAL (R179, R185). -/
inductive Reject where
  /-- a major that R183 or R184 marks ILLEGAL -/
  | major
  /-- LIX in the C position of a pair (R179) -/
  | lixInPair
  /-- a selector value that no instruction defines -/
  | selector
  /-- a type code outside the instruction's set -/
  | typeCode
  /-- the quad-lanes bit with a typed class (R252) -/
  | quadClass
  /-- fewer than the eight bytes of a bundle (R177) -/
  | short
  deriving DecidableEq, Repr

/-- The n bits of w from bit lo upward. -/
def field (n lo w : Nat) : BitVec n := BitVec.ofNat n (w / 2 ^ lo)

/-- Bit lo of w. -/
def bit (lo w : Nat) : Bool := w / 2 ^ lo % 2 == 1

/-- The vector forms whose quad-lanes bit q is allowed only with class RAW (R252). -/
def quadOk (q : Bool) (cls : BitVec 2) (i : Instr) : Except Reject Instr :=
  if q && cls != 3 then .error .quadClass else .ok i

/-- The C syllable with major maj and the word w it stands in; ext is word 1, lone says whether it stands alone
(R180, R181, R183). -/
def decodeC (maj w ext : Nat) (lone : Bool) : Except Reject Instr :=
  match maj with
  | 0x01 => .ok .cnop
  | 0x02 => .ok (.li (field 5 19 w) (field 19 0 w))
  | 0x03 =>
    if lone then
      if bit 18 w then .ok (.lixHi (field 5 19 w) (field 32 0 ext))
      else .ok (.lix (field 5 19 w) (BitVec.ofNat 50 (w % 2 ^ 18 * 2 ^ 32 + ext % 2 ^ 32)))
    else .error .lixInPair
  | 0x04 => .ok (.addi (field 5 19 w) (field 5 14 w) (field 14 0 w))
  | 0x05 =>
    match w % 2 ^ 9 with
    | 0 => .ok (.movpToScalar (field 5 19 w) (field 3 14 w))
    | 1 => .ok (.movpToPred (field 3 19 w) (field 5 14 w))
    | 2 => .ok (.movpAnd (field 3 19 w) (field 3 14 w) (field 3 9 w))
    | 3 => .ok (.movpOr (field 3 19 w) (field 3 14 w) (field 3 9 w))
    | 4 => .ok (.movpXor (field 3 19 w) (field 3 14 w) (field 3 9 w))
    | 5 => .ok (.movpNot (field 3 19 w) (field 3 14 w))
    | _ => .error .selector
  | 0x06 => .ok (.getsr (field 5 19 w) (field 14 0 w))
  | 0x07 => .ok (.setsr (field 14 0 w) (field 5 14 w))
  | 0x08 => .ok (.br (field 19 0 w))
  | 0x09 => .ok (.brp (field 3 19 w) (bit 22 w) (field 19 0 w))
  | 0x0a => .ok (.call (field 19 0 w))
  | 0x0b => .ok (.jr (field 5 19 w) (field 5 14 w) (field 9 0 w))
  | 0x0c => .ok (.loop (field 5 19 w) (field 19 0 w))
  | 0x0d => .ok .yield
  | 0x0e =>
    match w % 2 ^ 9 with
    | 0 => .ok (.fuse (field 5 19 w) (field 5 14 w))
    | 1 => .ok .split
    | _ => .error .selector
  | 0x0f => .ok .tend
  | 0x10 => .ok (.ld (field 5 19 w) (field 5 14 w) (field 2 9 w) (bit 11 w) (field 9 0 w))
  | 0x11 => if w / 2 ^ 4 % 2 ^ 5 = 0 then .ok (.ldx (field 5 19 w) (field 5 14 w) (field 5 9 w) (field 2 0 w) (bit 2 w) (bit 3 w)) else .error .selector
  | 0x12 => .ok (.st (field 5 19 w) (field 5 14 w) (field 2 9 w) (field 9 0 w))
  | 0x13 => if w / 2 ^ 4 % 2 ^ 5 = 0 then .ok (.stx (field 5 19 w) (field 5 14 w) (field 5 9 w) (field 2 0 w) (bit 3 w)) else .error .selector
  | 0x14 => .ok (.vld (field 5 19 w) (field 5 14 w) (field 2 9 w) (field 9 0 w))
  | 0x15 => .ok (.vst (field 5 19 w) (field 5 14 w) (field 2 9 w) (field 9 0 w))
  | 0x16 => if w / 2 ^ 3 % 2 ^ 6 = 0 then quadOk (bit 2 w) (field 2 0 w) (.vlds (field 5 19 w) (field 5 14 w) (field 5 9 w) (bit 2 w) (field 2 0 w)) else .error .selector
  | 0x17 => if w / 2 ^ 3 % 2 ^ 6 = 0 then quadOk (bit 2 w) (field 2 0 w) (.vsts (field 5 19 w) (field 5 14 w) (field 5 9 w) (bit 2 w) (field 2 0 w)) else .error .selector
  | 0x18 => if w / 2 ^ 3 % 2 ^ 6 = 0 then quadOk (bit 2 w) (field 2 0 w) (.vgath (field 5 19 w) (field 5 14 w) (field 5 9 w) (bit 2 w) (field 2 0 w)) else .error .selector
  | 0x19 => if w / 2 ^ 3 % 2 ^ 6 = 0 then quadOk (bit 2 w) (field 2 0 w) (.vscat (field 5 19 w) (field 5 14 w) (field 5 9 w) (bit 2 w) (field 2 0 w)) else .error .selector
  | 0x1a =>
    if w / 2 ^ 5 % 2 ^ 4 = 0 then
      match w % 2 ^ 4 with
      | 0 => .ok (.amoAdd (field 5 19 w) (field 5 14 w) (field 5 9 w) (bit 4 w))
      | 1 => .ok (.amoSmin (field 5 19 w) (field 5 14 w) (field 5 9 w) (bit 4 w))
      | 2 => .ok (.amoSmax (field 5 19 w) (field 5 14 w) (field 5 9 w) (bit 4 w))
      | 3 => .ok (.amoUmin (field 5 19 w) (field 5 14 w) (field 5 9 w) (bit 4 w))
      | 4 => .ok (.amoUmax (field 5 19 w) (field 5 14 w) (field 5 9 w) (bit 4 w))
      | 5 => .ok (.amoAnd (field 5 19 w) (field 5 14 w) (field 5 9 w) (bit 4 w))
      | 6 => .ok (.amoOr (field 5 19 w) (field 5 14 w) (field 5 9 w) (bit 4 w))
      | 7 => .ok (.amoXor (field 5 19 w) (field 5 14 w) (field 5 9 w) (bit 4 w))
      | 8 => .ok (.amoSwap (field 5 19 w) (field 5 14 w) (field 5 9 w) (bit 4 w))
      | 9 => .ok (.amoCas (field 5 19 w) (field 5 14 w) (field 5 9 w) (bit 4 w))
      | _ => .error .selector
    else .error .selector
  | 0x1b =>
    match w % 2 ^ 9 with
    | 0 => .ok (.rel (field 5 19 w))
    | 1 => .ok (.relf (field 5 19 w) (field 5 14 w))
    | _ => .error .selector
  | 0x1c =>
    match w % 2 ^ 9 with
    | 0 => .ok (.acq (field 5 14 w) (field 5 9 w))
    | 1 => .ok (.acqf (field 5 19 w) (field 5 14 w) (field 5 9 w))
    | _ => .error .selector
  | 0x1d =>
    match w % 2 ^ 9 with
    | 0 => .ok (.acqr (field 5 14 w) (field 5 9 w))
    | 1 => .ok .acqrAll
    | _ => .error .selector
  | 0x1e =>
    match w % 2 ^ 9 with
    | 0 => .ok (.fenceCore (field 5 19 w))
    | 1 => .ok (.fenceDevice (field 5 19 w))
    | 2 => .ok (.fenceSystem (field 5 19 w))
    | 4 => .ok (.waitf (field 5 14 w))
    | _ => .error .selector
  | 0x1f =>
    match w % 2 ^ 9 with
    | 0 => .ok (.reclaim (field 5 14 w))
    | 1 => .ok (.logqStat (field 5 19 w) (field 5 14 w))
    | 2 => .ok (.logqTail (field 5 19 w))
    | 3 => .ok (.logqVoid (field 5 19 w) (field 5 14 w))
    | 4 => .ok (.logqResend (field 5 19 w) (field 5 14 w))
    | _ => .error .selector
  | 0x20 =>
    match w % 2 ^ 9 with
    | 0 => .ok (.cpy (field 5 19 w) (field 5 14 w))
    | _ => .error .selector
  | 0x21 =>
    match w % 2 ^ 9 with
    | 0 => .ok (.cpyq (field 5 19 w) (field 5 14 w))
    | _ => .error .selector
  | 0x22 => if w / 2 ^ 3 % 2 ^ 6 = 0 then .ok (.send (field 5 19 w) (field 5 14 w) (field 5 9 w) (field 3 0 w)) else .error .selector
  | 0x23 =>
    match w % 2 ^ 9 with
    | 0 => .ok (.recv (field 5 19 w))
    | _ => .error .selector
  | 0x24 =>
    match w % 2 ^ 9 with
    | 0 => .ok (.poll (field 5 19 w))
    | _ => .error .selector
  | 0x25 =>
    match w % 2 ^ 9 with
    | 0 => .ok (.deq (field 5 19 w))
    | _ => .error .selector
  | 0x26 =>
    match w % 2 ^ 9 with
    | 0 => .ok (.epn (field 5 19 w))
    | 1 => .ok (.epnC (field 5 19 w) (field 5 14 w))
    | 2 => .ok (.epnL (field 5 19 w))
    | _ => .error .selector
  | 0x27 => .ok (.chkerr (field 5 19 w))
  | 0x28 =>
    match w % 2 ^ 9 with
    | 0 => .ok (.bar (field 5 19 w))
    | 1 => .ok (.barC (field 5 19 w))
    | _ => .error .selector
  | 0x29 =>
    match w % 2 ^ 9 with
    | 0 => .ok (.bargen (field 5 19 w) (field 5 14 w))
    | _ => .error .selector
  | 0x2a =>
    match w % 2 ^ 9 with
    | 0 => .ok (.barwait (field 5 14 w) (field 5 9 w))
    | _ => .error .selector
  | 0x2b =>
    match w % 2 ^ 9 with
    | 0 => .ok (.ttload (field 5 14 w) (field 5 9 w))
    | _ => .error .selector
  | 0x2c =>
    match w % 2 ^ 9 with
    | 0 => .ok (.tsend (field 5 14 w) (field 5 9 w))
    | _ => .error .selector
  | 0x2d =>
    match w % 2 ^ 9 with
    | 0 => .ok (.trecv (field 5 14 w) (field 5 9 w))
    | _ => .error .selector
  | 0x2e =>
    match w % 2 ^ 9 with
    | 0 => .ok (.commend (field 5 19 w))
    | _ => .error .selector
  | 0x2f =>
    match w % 2 ^ 9 with
    | 0 => .ok (.mtrx (field 5 19 w) (field 5 14 w) (field 5 9 w))
    | _ => .error .selector
  | 0x30 =>
    match w % 2 ^ 9 with
    | 0 => .ok (.mq (field 5 19 w) (field 5 14 w))
    | _ => .error .selector
  | 0x31 =>
    match w % 2 ^ 9 with
    | 0 => .ok (.mpoll (field 5 19 w) (field 5 14 w))
    | _ => .error .selector
  | 0x32 =>
    match w % 2 ^ 9 with
    | 0 => .ok (.mwait (field 5 14 w))
    | _ => .error .selector
  | 0x33 => if field 3 3 w = 7 then .error .typeCode else .ok (.accld (field 5 14 w) (field 5 9 w) (field 3 3 w) (field 3 0 w))
  | 0x34 => if field 3 3 w = 7 then .error .typeCode else .ok (.accst (field 5 14 w) (field 5 9 w) (field 3 3 w) (field 3 0 w))
  | 0x35 =>
    match w % 2 ^ 9 with
    | 0 => .ok (.mbind (field 5 19 w) (field 5 14 w))
    | 1 => .ok (.mver (field 5 19 w) (field 5 14 w))
    | _ => .error .selector
  | 0x36 =>
    match w % 2 ^ 9 with
    | 0 => .ok (.munbind (field 5 14 w))
    | 1 => .ok (.mreset (field 5 14 w))
    | _ => .error .selector
  | 0x37 =>
    match w % 2 ^ 9 with
    | 0 => .ok (.mupd (field 5 19 w) (field 5 14 w))
    | 1 => .ok (.mhist (field 5 19 w) (field 5 14 w))
    | _ => .error .selector
  | 0x38 =>
    match w % 2 ^ 9 with
    | 0 => .ok (.trap (field 5 14 w))
    | 1 => .ok (.gkill (field 5 19 w) (field 5 14 w))
    | _ => .error .selector
  | 0x39 =>
    match w % 2 ^ 9 with
    | 0 => .ok .eret
    | _ => .error .selector
  | 0x3a => .ok (.sigchk (field 16 0 w))
  | 0x3b =>
    match w % 2 ^ 9 with
    | 0 => .ok (.tinv (field 5 14 w) (field 5 9 w))
    | 1 => .ok .tinvAll
    | _ => .error .selector
  | 0x3c => .ok (.pref (field 5 14 w) (field 14 0 w))
  | 0x3d => .ok (.cHint 0x3d#6 (field 24 0 w))
  | 0x3e => .ok (.cHint 0x3e#6 (field 24 0 w))
  | 0x3f => .ok (.cHint 0x3f#6 (field 24 0 w))
  | _ => .error .major

/-- The A syllable with major maj and the word w it stands in (R180, R182, R184). -/
def decodeA (maj w : Nat) : Except Reject Instr :=
  match maj with
  | 0x01 => .ok (.add (field 5 19 w) (field 5 14 w) (field 5 9 w))
  | 0x02 => .ok (.sub (field 5 19 w) (field 5 14 w) (field 5 9 w))
  | 0x03 =>
    match w % 2 ^ 3 with
    | 0 => .ok (.mul (field 5 19 w) (field 5 14 w) (field 5 9 w))
    | 1 => .ok (.mulhs (field 5 19 w) (field 5 14 w) (field 5 9 w))
    | 2 => .ok (.mulhu (field 5 19 w) (field 5 14 w) (field 5 9 w))
    | _ => .error .selector
  | 0x04 =>
    match w % 2 ^ 3 with
    | 0 => .ok (.div (field 5 19 w) (field 5 14 w) (field 5 9 w))
    | 1 => .ok (.divu (field 5 19 w) (field 5 14 w) (field 5 9 w))
    | 2 => .ok (.rem (field 5 19 w) (field 5 14 w) (field 5 9 w))
    | 3 => .ok (.remu (field 5 19 w) (field 5 14 w) (field 5 9 w))
    | _ => .error .selector
  | 0x05 =>
    match w % 2 ^ 3 with
    | 0 => .ok (.and (field 5 19 w) (field 5 14 w) (field 5 9 w))
    | 1 => .ok (.or (field 5 19 w) (field 5 14 w) (field 5 9 w))
    | 2 => .ok (.xor (field 5 19 w) (field 5 14 w) (field 5 9 w))
    | 3 => .ok (.andn (field 5 19 w) (field 5 14 w) (field 5 9 w))
    | 4 => .ok (.orn (field 5 19 w) (field 5 14 w) (field 5 9 w))
    | 5 => .ok (.xnor (field 5 19 w) (field 5 14 w) (field 5 9 w))
    | _ => .error .selector
  | 0x06 =>
    match w % 2 ^ 3 with
    | 0 => .ok (.shl (field 5 19 w) (field 5 14 w) (field 5 9 w))
    | 1 => .ok (.shr (field 5 19 w) (field 5 14 w) (field 5 9 w))
    | 2 => .ok (.sra (field 5 19 w) (field 5 14 w) (field 5 9 w))
    | 3 => .ok (.rol (field 5 19 w) (field 5 14 w) (field 5 9 w))
    | _ => .error .selector
  | 0x07 =>
    match w % 2 ^ 3 with
    | 0 => .ok (.smin (field 5 19 w) (field 5 14 w) (field 5 9 w))
    | 1 => .ok (.smax (field 5 19 w) (field 5 14 w) (field 5 9 w))
    | 2 => .ok (.umin (field 5 19 w) (field 5 14 w) (field 5 9 w))
    | 3 => .ok (.umax (field 5 19 w) (field 5 14 w) (field 5 9 w))
    | _ => .error .selector
  | 0x08 =>
    match w % 2 ^ 3 with
    | 0 => .ok (.clz (field 5 19 w) (field 5 14 w))
    | 1 => .ok (.ctz (field 5 19 w) (field 5 14 w))
    | 2 => .ok (.popc (field 5 19 w) (field 5 14 w))
    | 3 => .ok (.brev (field 5 19 w) (field 5 14 w))
    | 4 => .ok (.bswap (field 5 19 w) (field 5 14 w))
    | _ => .error .selector
  | 0x09 =>
    match w % 2 ^ 3 with
    | 0 => .ok (.cmpEq (field 3 19 w) (field 5 14 w) (field 5 9 w))
    | 1 => .ok (.cmpNe (field 3 19 w) (field 5 14 w) (field 5 9 w))
    | 2 => .ok (.cmpLt (field 3 19 w) (field 5 14 w) (field 5 9 w))
    | 3 => .ok (.cmpLe (field 3 19 w) (field 5 14 w) (field 5 9 w))
    | 4 => .ok (.cmpLtu (field 3 19 w) (field 5 14 w) (field 5 9 w))
    | 5 => .ok (.cmpLeu (field 3 19 w) (field 5 14 w) (field 5 9 w))
    | _ => .error .selector
  | 0x0a => .ok (.sel (field 5 19 w) (field 5 14 w) (field 5 9 w))
  | 0x0b =>
    match w % 2 ^ 3 with
    | 0 => .ok (.bfx (field 5 19 w) (field 5 14 w) (field 5 9 w))
    | 1 => .ok (.bfi (field 5 19 w) (field 5 14 w) (field 5 9 w))
    | _ => .error .selector
  | 0x0c => .ok (.adda (field 5 19 w) (field 5 14 w) (field 5 9 w))
  | 0x10 => if bit 5 w then .error .typeCode else .ok (.fadd (field 2 3 w) (field 5 19 w) (field 5 14 w) (field 5 9 w) (field 3 6 w))
  | 0x11 => if bit 5 w then .error .typeCode else .ok (.fsub (field 2 3 w) (field 5 19 w) (field 5 14 w) (field 5 9 w) (field 3 6 w))
  | 0x12 => if bit 5 w then .error .typeCode else .ok (.fmul (field 2 3 w) (field 5 19 w) (field 5 14 w) (field 5 9 w) (field 3 6 w))
  | 0x13 => if bit 5 w then .error .typeCode else .ok (.ffma (field 2 3 w) (field 5 19 w) (field 5 14 w) (field 5 9 w) (field 3 6 w))
  | 0x14 => if bit 5 w then .error .typeCode else .ok (.fdiv (field 2 3 w) (field 5 19 w) (field 5 14 w) (field 5 9 w) (field 3 6 w))
  | 0x15 => if bit 5 w then .error .typeCode else .ok (.fsqrt (field 2 3 w) (field 5 19 w) (field 5 14 w) (field 3 6 w))
  | 0x16 =>
    if bit 5 w = false then
      match w % 2 ^ 3 with
      | 0 => .ok (.fmin (field 2 3 w) (field 5 19 w) (field 5 14 w) (field 5 9 w))
      | 1 => .ok (.fmax (field 2 3 w) (field 5 19 w) (field 5 14 w) (field 5 9 w))
      | 2 => .ok (.fminn (field 2 3 w) (field 5 19 w) (field 5 14 w) (field 5 9 w))
      | 3 => .ok (.fmaxn (field 2 3 w) (field 5 19 w) (field 5 14 w) (field 5 9 w))
      | _ => .error .selector
    else .error .typeCode
  | 0x17 =>
    if bit 5 w = false then
      match w % 2 ^ 3 with
      | 0 => .ok (.fcmpEq (field 2 3 w) (field 3 19 w) (field 5 14 w) (field 5 9 w))
      | 1 => .ok (.fcmpNe (field 2 3 w) (field 3 19 w) (field 5 14 w) (field 5 9 w))
      | 2 => .ok (.fcmpLt (field 2 3 w) (field 3 19 w) (field 5 14 w) (field 5 9 w))
      | 3 => .ok (.fcmpLe (field 2 3 w) (field 3 19 w) (field 5 14 w) (field 5 9 w))
      | 4 => .ok (.fcmpUn (field 2 3 w) (field 3 19 w) (field 5 14 w) (field 5 9 w))
      | 5 => .ok (.fcmpOrd (field 2 3 w) (field 3 19 w) (field 5 14 w) (field 5 9 w))
      | _ => .error .selector
    else .error .typeCode
  | 0x18 => if bit 9 w then .ok (.fcvtu (field 3 3 w) (field 3 0 w) (field 5 19 w) (field 5 14 w) (field 3 6 w)) else .ok (.fcvt (field 3 3 w) (field 3 0 w) (field 5 19 w) (field 5 14 w) (field 3 6 w))
  | 0x19 => if bit 5 w then .error .typeCode else .ok (.fclass (field 2 3 w) (field 5 19 w) (field 5 14 w))
  | 0x1a =>
    if bit 5 w = false then
      match w % 2 ^ 3 with
      | 0 => .ok (.fabs (field 2 3 w) (field 5 19 w) (field 5 14 w))
      | 1 => .ok (.fneg (field 2 3 w) (field 5 19 w) (field 5 14 w))
      | 2 => .ok (.fcpsgn (field 2 3 w) (field 5 19 w) (field 5 14 w) (field 5 9 w))
      | _ => .error .selector
    else .error .typeCode
  | 0x1b =>
    if bit 5 w = false then
      match w % 2 ^ 3 with
      | 0 => .ok (.exp2 (field 2 3 w) (field 5 19 w) (field 5 14 w))
      | 1 => .ok (.log2 (field 2 3 w) (field 5 19 w) (field 5 14 w))
      | 2 => .ok (.sin (field 2 3 w) (field 5 19 w) (field 5 14 w))
      | 3 => .ok (.cos (field 2 3 w) (field 5 19 w) (field 5 14 w))
      | 4 => .ok (.tanh (field 2 3 w) (field 5 19 w) (field 5 14 w))
      | 5 => .ok (.rcp (field 2 3 w) (field 5 19 w) (field 5 14 w))
      | 6 => .ok (.rsq (field 2 3 w) (field 5 19 w) (field 5 14 w))
      | _ => .error .selector
    else .error .typeCode
  | 0x20 => .ok (.vadd (field 3 3 w) (field 5 19 w) (field 5 14 w) (field 5 9 w) (field 3 6 w))
  | 0x21 => .ok (.vsub (field 3 3 w) (field 5 19 w) (field 5 14 w) (field 5 9 w) (field 3 6 w))
  | 0x22 => .ok (.vmul (field 3 3 w) (field 5 19 w) (field 5 14 w) (field 5 9 w) (field 3 6 w))
  | 0x23 => .ok (.vfma (field 3 3 w) (field 5 19 w) (field 5 14 w) (field 5 9 w) (field 3 6 w))
  | 0x24 =>
    match w % 2 ^ 3 with
    | 0 => .ok (.vmin (field 3 3 w) (field 5 19 w) (field 5 14 w) (field 5 9 w))
    | 1 => .ok (.vmax (field 3 3 w) (field 5 19 w) (field 5 14 w) (field 5 9 w))
    | _ => .error .selector
  | 0x25 =>
    match w % 2 ^ 3 with
    | 0 => .ok (.vand (field 5 19 w) (field 5 14 w) (field 5 9 w))
    | 1 => .ok (.vor (field 5 19 w) (field 5 14 w) (field 5 9 w))
    | 2 => .ok (.vxor (field 5 19 w) (field 5 14 w) (field 5 9 w))
    | 3 => .ok (.vandn (field 5 19 w) (field 5 14 w) (field 5 9 w))
    | 4 => .ok (.vorn (field 5 19 w) (field 5 14 w) (field 5 9 w))
    | 5 => .ok (.vxnor (field 5 19 w) (field 5 14 w) (field 5 9 w))
    | _ => .error .selector
  | 0x26 =>
    if bit 5 w then
      match w % 2 ^ 3 with
      | 0 => .ok (.vshl (field 2 3 w) (field 5 19 w) (field 5 14 w) (field 5 9 w))
      | 1 => .ok (.vshr (field 2 3 w) (field 5 19 w) (field 5 14 w) (field 5 9 w))
      | 2 => .ok (.vsra (field 2 3 w) (field 5 19 w) (field 5 14 w) (field 5 9 w))
      | 3 => .ok (.vrol (field 2 3 w) (field 5 19 w) (field 5 14 w) (field 5 9 w))
      | _ => .error .selector
    else .error .typeCode
  | 0x27 =>
    match w % 2 ^ 3 with
    | 0 => .ok (.vcmpEq (field 3 3 w) (field 5 19 w) (field 5 14 w) (field 5 9 w))
    | 1 => .ok (.vcmpNe (field 3 3 w) (field 5 19 w) (field 5 14 w) (field 5 9 w))
    | 2 => .ok (.vcmpLt (field 3 3 w) (field 5 19 w) (field 5 14 w) (field 5 9 w))
    | 3 => .ok (.vcmpLe (field 3 3 w) (field 5 19 w) (field 5 14 w) (field 5 9 w))
    | 4 => .ok (.vcmpUnLtu (field 3 3 w) (field 5 19 w) (field 5 14 w) (field 5 9 w))
    | 5 => .ok (.vcmpOrdLeu (field 3 3 w) (field 5 19 w) (field 5 14 w) (field 5 9 w))
    | _ => .error .selector
  | 0x28 => .ok (.vsel (field 3 3 w) (field 5 19 w) (field 5 14 w) (field 5 9 w))
  | 0x29 => if bit 12 w then .ok (.vcvtu (field 3 3 w) (field 3 0 w) (field 3 9 w) (field 5 19 w) (field 5 14 w) (field 3 6 w)) else .ok (.vcvt (field 3 3 w) (field 3 0 w) (field 3 9 w) (field 5 19 w) (field 5 14 w) (field 3 6 w))
  | 0x2a =>
    if bit 5 w = false then
      match w % 2 ^ 3 with
      | 0 => .ok (.vexp2 (field 2 3 w) (field 5 19 w) (field 5 14 w))
      | 1 => .ok (.vlog2 (field 2 3 w) (field 5 19 w) (field 5 14 w))
      | 2 => .ok (.vsin (field 2 3 w) (field 5 19 w) (field 5 14 w))
      | 3 => .ok (.vcos (field 2 3 w) (field 5 19 w) (field 5 14 w))
      | 4 => .ok (.vtanh (field 2 3 w) (field 5 19 w) (field 5 14 w))
      | 5 => .ok (.vrcp (field 2 3 w) (field 5 19 w) (field 5 14 w))
      | 6 => .ok (.vrsq (field 2 3 w) (field 5 19 w) (field 5 14 w))
      | _ => .error .selector
    else .error .typeCode
  | 0x2b =>
    match w % 2 ^ 3 with
    | 0 => .ok (.vredSum (field 3 3 w) (field 5 19 w) (field 5 14 w) (field 3 6 w))
    | 1 => .ok (.vredMin (field 3 3 w) (field 5 19 w) (field 5 14 w))
    | 2 => .ok (.vredMax (field 3 3 w) (field 5 19 w) (field 5 14 w))
    | _ => .error .selector
  | 0x2c =>
    match w % 2 ^ 3 with
    | 0 => .ok (.vshuf (field 3 3 w) (field 5 19 w) (field 5 14 w) (field 5 9 w))
    | _ => .error .selector
  | 0x2d =>
    match w % 2 ^ 3 with
    | 0 => .ok (.vbcast (field 3 3 w) (field 5 19 w) (field 5 14 w))
    | 1 => .ok (.vins (field 3 3 w) (field 5 19 w) (field 5 14 w) (field 5 9 w))
    | 2 => .ok (.vext (field 3 3 w) (field 5 19 w) (field 5 14 w) (field 5 9 w))
    | _ => .error .selector
  | 0x2e =>
    match w % 2 ^ 6 with
    | 40 => .ok (.vrngI32 (field 5 19 w) (field 5 14 w) (field 5 9 w))
    | 8 => .ok (.vrngF32 (field 5 19 w) (field 5 14 w) (field 5 9 w))
    | _ => .error .selector
  | 0x2f =>
    match w % 2 ^ 6 with
    | 8 => .ok (.vdrop (field 5 19 w) (field 5 14 w) (field 5 9 w) (field 3 6 w))
    | _ => .error .selector
  | 0x30 =>
    match w % 2 ^ 6 with
    | 8 => .ok (.vquantE4m3 (field 5 19 w) (field 5 14 w) (field 5 9 w) (field 3 6 w))
    | 9 => .ok (.vquantE5m2 (field 5 19 w) (field 5 14 w) (field 5 9 w) (field 3 6 w))
    | 10 => .ok (.vquantInt8 (field 5 19 w) (field 5 14 w) (field 5 9 w) (field 3 6 w))
    | _ => .error .selector
  | 0x31 =>
    match w % 2 ^ 6 with
    | 8 => .ok (.vdeqE4m3 (field 5 19 w) (field 5 14 w) (bit 9 w) (field 3 6 w))
    | 9 => .ok (.vdeqE5m2 (field 5 19 w) (field 5 14 w) (bit 9 w) (field 3 6 w))
    | 10 => .ok (.vdeqInt8 (field 5 19 w) (field 5 14 w) (bit 9 w) (field 3 6 w))
    | _ => .error .selector
  | 0x33 =>
    match w % 2 ^ 6 with
    | 8 => .ok (.vgab (field 5 19 w) (field 5 14 w) (field 5 9 w))
    | _ => .error .selector
  | 0x34 =>
    match w % 2 ^ 6 with
    | 8 => .ok (.vgabr (field 5 19 w) (field 5 14 w) (field 5 9 w) (field 3 6 w))
    | _ => .error .selector
  | 0x35 =>
    if bit 5 w = false then
      match w % 2 ^ 3 with
      | 0 => .ok (.vabf (field 2 3 w) (field 5 19 w) (field 5 14 w) (field 5 9 w))
      | _ => .error .selector
    else .error .typeCode
  | 0x36 =>
    if w / 2 ^ 4 % 2 ^ 2 = 0 then
      match w % 2 ^ 3 with
      | 0 => .ok (.vabfadd (bit 3 w) (field 5 19 w) (field 5 14 w) (field 5 9 w))
      | _ => .error .selector
    else .error .typeCode
  | 0x37 =>
    if bit 5 w = false then
      match w % 2 ^ 3 with
      | 0 => .ok (.vabfx (field 2 3 w) (field 5 19 w) (field 5 14 w) (field 5 9 w) (field 3 6 w))
      | _ => .error .selector
    else .error .typeCode
  | 0x38 =>
    if bit 5 w = false then
      match w % 2 ^ 3 with
      | 0 => .ok (.vexpmax (field 2 3 w) (field 5 19 w) (field 5 14 w))
      | _ => .error .selector
    else .error .typeCode
  | 0x3f => .ok (.aHint (field 24 0 w))
  | _ => .error .major

/-- A bundle: a lone syllable, or a C syllable with its A syllable (R178). -/
abbrev Bundle := Instr × Option Instr

/-- Reads the 64 bits of a bundle (R178). -/
def decodeBundle (bits : Nat) : Except Reject Bundle :=
  let w0 := bits % 2 ^ 32
  let w1 := bits / 2 ^ 32 % 2 ^ 32
  if bit 31 w0 then
    match decodeC (w0 / 2 ^ 24 % 2 ^ 6) w0 0 false with
    | .error r => .error r
    | .ok c =>
      match decodeA (w1 / 2 ^ 24 % 2 ^ 6) w1 with
      | .error r => .error r
      | .ok a => .ok (c, some a)
  else
    match (if bit 30 w0 then decodeA (w0 / 2 ^ 24 % 2 ^ 6) w0 else decodeC (w0 / 2 ^ 24 % 2 ^ 6) w0 w1 true) with
    | .error r => .error r
    | .ok i => .ok (i, none)

/-- Little-endian value of bytes (R3). -/
def leValue : List Byte → Nat
  | [] => 0
  | b :: bs => b.toNat + 2 ^ 8 * leValue bs

/-- The low n bytes of v, least significant first (R3). -/
def leBytes : Nat → Nat → List Byte
  | 0, _ => []
  | n + 1, v => BitVec.ofNat 8 v :: leBytes n (v / 2 ^ 8)

/-- Reads one bundle from the bytes at its address and returns the bytes after it (R177). -/
def decode : List Byte → Except Reject (Bundle × List Byte)
  | b0 :: b1 :: b2 :: b3 :: b4 :: b5 :: b6 :: b7 :: rest =>
    match decodeBundle (leValue [b0, b1, b2, b3, b4, b5, b6, b7]) with
    | .error r => .error r
    | .ok b => .ok (b, rest)
  | _ => .error .short

/-- The instruction the decoder reads from an instruction whose bits are w as the opcode table numbers them: the
bundle whose word 0 holds bits 31 to 0 and whose word 1 holds the bits above, stored little-endian. For a pair, the
C syllable. -/
def decodeTableWord (_nbits w : Nat) : Option Instr :=
  match decode (leBytes 8 w) with
  | .ok ((i, _), _) => some i
  | .error _ => none

/-- x placed at bit lo of a syllable. -/
def put {n : Nat} (lo : Nat) (x : BitVec n) : Nat := x.toNat * 2 ^ lo

/-- A flag placed at bit lo of a syllable. -/
def putBit (lo : Nat) (x : Bool) : Nat := x.toNat * 2 ^ lo

/-- The low 24 bits of a syllable, without the major (the encoding tables of R180 to R184). An event has none. -/
def encodeLow : Instr → Nat
  | .cnop => 0
  | .li d imm => put 19 d + put 0 imm
  | .lix d imm => put 19 d + imm.toNat / 2 ^ 32
  | .lixHi d _ => put 19 d + 2 ^ 18
  | .addi d a imm => put 19 d + put 14 a + put 0 imm
  | .movpToScalar d a => put 19 d + put 14 a
  | .movpToPred d a => put 19 d + put 14 a + 1
  | .movpAnd d a b => put 19 d + put 14 a + put 9 b + 2
  | .movpOr d a b => put 19 d + put 14 a + put 9 b + 3
  | .movpXor d a b => put 19 d + put 14 a + put 9 b + 4
  | .movpNot d a => put 19 d + put 14 a + 5
  | .getsr d n => put 19 d + put 0 n
  | .setsr n a => put 0 n + put 14 a
  | .inboxWrite _ _ => 0
  | .bankkeyWrite _ _ => 0
  | .br imm => put 0 imm
  | .brp p inv imm => put 19 p + putBit 22 inv + put 0 imm
  | .call imm => put 0 imm
  | .jr d a imm => put 19 d + put 14 a + put 0 imm
  | .loop d imm => put 19 d + put 0 imm
  | .yield => 0
  | .fuse d a => put 19 d + put 14 a
  | .split => 1
  | .tend => 0
  | .ld d a sz u imm => put 19 d + put 14 a + put 9 sz + putBit 11 u + put 0 imm
  | .ldx d a b sz u sc => put 19 d + put 14 a + put 9 b + put 0 sz + putBit 2 u + putBit 3 sc
  | .st d a sz imm => put 19 d + put 14 a + put 9 sz + put 0 imm
  | .stx d a b sz sc => put 19 d + put 14 a + put 9 b + put 0 sz + putBit 3 sc
  | .vld d a cls imm => put 19 d + put 14 a + put 9 cls + put 0 imm
  | .vst d a cls imm => put 19 d + put 14 a + put 9 cls + put 0 imm
  | .vlds d a b q cls => put 19 d + put 14 a + put 9 b + putBit 2 q + put 0 cls
  | .vsts d a b q cls => put 19 d + put 14 a + put 9 b + putBit 2 q + put 0 cls
  | .vgath d a b q cls => put 19 d + put 14 a + put 9 b + putBit 2 q + put 0 cls
  | .vscat d a b q cls => put 19 d + put 14 a + put 9 b + putBit 2 q + put 0 cls
  | .amoAdd d a b w => put 19 d + put 14 a + put 9 b + putBit 4 w
  | .amoSmin d a b w => put 19 d + put 14 a + put 9 b + putBit 4 w + 1
  | .amoSmax d a b w => put 19 d + put 14 a + put 9 b + putBit 4 w + 2
  | .amoUmin d a b w => put 19 d + put 14 a + put 9 b + putBit 4 w + 3
  | .amoUmax d a b w => put 19 d + put 14 a + put 9 b + putBit 4 w + 4
  | .amoAnd d a b w => put 19 d + put 14 a + put 9 b + putBit 4 w + 5
  | .amoOr d a b w => put 19 d + put 14 a + put 9 b + putBit 4 w + 6
  | .amoXor d a b w => put 19 d + put 14 a + put 9 b + putBit 4 w + 7
  | .amoSwap d a b w => put 19 d + put 14 a + put 9 b + putBit 4 w + 8
  | .amoCas d a b w => put 19 d + put 14 a + put 9 b + putBit 4 w + 9
  | .rel d => put 19 d
  | .relf d a => put 19 d + put 14 a + 1
  | .acq a b => put 14 a + put 9 b
  | .acqf d a b => put 19 d + put 14 a + put 9 b + 1
  | .acqfReread _ => 0
  | .acqr a b => put 14 a + put 9 b
  | .acqrAll => 1
  | .fenceCore d => put 19 d
  | .fenceDevice d => put 19 d + 1
  | .fenceSystem d => put 19 d + 2
  | .waitf a => put 14 a + 4
  | .reclaim a => put 14 a
  | .logqStat d a => put 19 d + put 14 a + 1
  | .logqTail d => put 19 d + 2
  | .logqVoid d a => put 19 d + put 14 a + 3
  | .logqResend d a => put 19 d + put 14 a + 4
  | .pref a imm => put 14 a + put 0 imm
  | .cpy d a => put 19 d + put 14 a
  | .cpyq d a => put 19 d + put 14 a
  | .send d a b len => put 19 d + put 14 a + put 9 b + put 0 len
  | .recv d => put 19 d
  | .poll d => put 19 d
  | .deq d => put 19 d
  | .epn d => put 19 d
  | .epnC d a => put 19 d + put 14 a + 1
  | .epnL d => put 19 d + 2
  | .chkerr d => put 19 d
  | .bar d => put 19 d
  | .barC d => put 19 d + 1
  | .bargen d a => put 19 d + put 14 a
  | .barwait a b => put 14 a + put 9 b
  | .ttload a b => put 14 a + put 9 b
  | .tsend a b => put 14 a + put 9 b
  | .flitDeparture _ => 0
  | .trecv a b => put 14 a + put 9 b
  | .commend d => put 19 d
  | .mtrx d a b => put 19 d + put 14 a + put 9 b
  | .mq d a => put 19 d + put 14 a
  | .mpoll d a => put 19 d + put 14 a
  | .mwait a => put 14 a
  | .accld a b t rm => put 14 a + put 9 b + put 3 t + put 0 rm
  | .accst a b t rm => put 14 a + put 9 b + put 3 t + put 0 rm
  | .mbind d a => put 19 d + put 14 a
  | .mver d a => put 19 d + put 14 a + 1
  | .munbind a => put 14 a
  | .mreset a => put 14 a + 1
  | .mupd d a => put 19 d + put 14 a
  | .mhist d a => put 19 d + put 14 a + 1
  | .trap a => put 14 a
  | .gkill d a => put 19 d + put 14 a + 1
  | .eret => 0
  | .sigchk imm => put 0 imm
  | .tinv a b => put 14 a + put 9 b
  | .tinvAll => 1
  | .cHint _ bits => put 0 bits
  | .add d a b => put 19 d + put 14 a + put 9 b
  | .sub d a b => put 19 d + put 14 a + put 9 b
  | .mul d a b => put 19 d + put 14 a + put 9 b
  | .mulhs d a b => put 19 d + put 14 a + put 9 b + 1
  | .mulhu d a b => put 19 d + put 14 a + put 9 b + 2
  | .div d a b => put 19 d + put 14 a + put 9 b
  | .divu d a b => put 19 d + put 14 a + put 9 b + 1
  | .rem d a b => put 19 d + put 14 a + put 9 b + 2
  | .remu d a b => put 19 d + put 14 a + put 9 b + 3
  | .and d a b => put 19 d + put 14 a + put 9 b
  | .or d a b => put 19 d + put 14 a + put 9 b + 1
  | .xor d a b => put 19 d + put 14 a + put 9 b + 2
  | .andn d a b => put 19 d + put 14 a + put 9 b + 3
  | .orn d a b => put 19 d + put 14 a + put 9 b + 4
  | .xnor d a b => put 19 d + put 14 a + put 9 b + 5
  | .shl d a b => put 19 d + put 14 a + put 9 b
  | .shr d a b => put 19 d + put 14 a + put 9 b + 1
  | .sra d a b => put 19 d + put 14 a + put 9 b + 2
  | .rol d a b => put 19 d + put 14 a + put 9 b + 3
  | .smin d a b => put 19 d + put 14 a + put 9 b
  | .smax d a b => put 19 d + put 14 a + put 9 b + 1
  | .umin d a b => put 19 d + put 14 a + put 9 b + 2
  | .umax d a b => put 19 d + put 14 a + put 9 b + 3
  | .clz d a => put 19 d + put 14 a
  | .ctz d a => put 19 d + put 14 a + 1
  | .popc d a => put 19 d + put 14 a + 2
  | .brev d a => put 19 d + put 14 a + 3
  | .bswap d a => put 19 d + put 14 a + 4
  | .cmpEq d a b => put 19 d + put 14 a + put 9 b
  | .cmpNe d a b => put 19 d + put 14 a + put 9 b + 1
  | .cmpLt d a b => put 19 d + put 14 a + put 9 b + 2
  | .cmpLe d a b => put 19 d + put 14 a + put 9 b + 3
  | .cmpLtu d a b => put 19 d + put 14 a + put 9 b + 4
  | .cmpLeu d a b => put 19 d + put 14 a + put 9 b + 5
  | .sel d a b => put 19 d + put 14 a + put 9 b
  | .bfx d a b => put 19 d + put 14 a + put 9 b
  | .bfi d a b => put 19 d + put 14 a + put 9 b + 1
  | .adda d a b => put 19 d + put 14 a + put 9 b
  | .fadd t d a b rm => put 3 t + put 19 d + put 14 a + put 9 b + put 6 rm
  | .fsub t d a b rm => put 3 t + put 19 d + put 14 a + put 9 b + put 6 rm
  | .fmul t d a b rm => put 3 t + put 19 d + put 14 a + put 9 b + put 6 rm
  | .ffma t d a b rm => put 3 t + put 19 d + put 14 a + put 9 b + put 6 rm
  | .fdiv t d a b rm => put 3 t + put 19 d + put 14 a + put 9 b + put 6 rm
  | .fsqrt t d a rm => put 3 t + put 19 d + put 14 a + put 6 rm
  | .fmin t d a b => put 3 t + put 19 d + put 14 a + put 9 b
  | .fmax t d a b => put 3 t + put 19 d + put 14 a + put 9 b + 1
  | .fminn t d a b => put 3 t + put 19 d + put 14 a + put 9 b + 2
  | .fmaxn t d a b => put 3 t + put 19 d + put 14 a + put 9 b + 3
  | .fcmpEq t d a b => put 3 t + put 19 d + put 14 a + put 9 b
  | .fcmpNe t d a b => put 3 t + put 19 d + put 14 a + put 9 b + 1
  | .fcmpLt t d a b => put 3 t + put 19 d + put 14 a + put 9 b + 2
  | .fcmpLe t d a b => put 3 t + put 19 d + put 14 a + put 9 b + 3
  | .fcmpUn t d a b => put 3 t + put 19 d + put 14 a + put 9 b + 4
  | .fcmpOrd t d a b => put 3 t + put 19 d + put 14 a + put 9 b + 5
  | .fcvt t s d a rm => put 3 t + put 0 s + put 19 d + put 14 a + put 6 rm
  | .fcvtu t s d a rm => put 3 t + put 0 s + put 19 d + put 14 a + put 6 rm + 512
  | .fclass t d a => put 3 t + put 19 d + put 14 a
  | .fabs t d a => put 3 t + put 19 d + put 14 a
  | .fneg t d a => put 3 t + put 19 d + put 14 a + 1
  | .fcpsgn t d a b => put 3 t + put 19 d + put 14 a + put 9 b + 2
  | .exp2 t d a => put 3 t + put 19 d + put 14 a
  | .log2 t d a => put 3 t + put 19 d + put 14 a + 1
  | .sin t d a => put 3 t + put 19 d + put 14 a + 2
  | .cos t d a => put 3 t + put 19 d + put 14 a + 3
  | .tanh t d a => put 3 t + put 19 d + put 14 a + 4
  | .rcp t d a => put 3 t + put 19 d + put 14 a + 5
  | .rsq t d a => put 3 t + put 19 d + put 14 a + 6
  | .vadd t d a b rm => put 3 t + put 19 d + put 14 a + put 9 b + put 6 rm
  | .vsub t d a b rm => put 3 t + put 19 d + put 14 a + put 9 b + put 6 rm
  | .vmul t d a b rm => put 3 t + put 19 d + put 14 a + put 9 b + put 6 rm
  | .vfma t d a b rm => put 3 t + put 19 d + put 14 a + put 9 b + put 6 rm
  | .vmin t d a b => put 3 t + put 19 d + put 14 a + put 9 b
  | .vmax t d a b => put 3 t + put 19 d + put 14 a + put 9 b + 1
  | .vand d a b => put 19 d + put 14 a + put 9 b
  | .vor d a b => put 19 d + put 14 a + put 9 b + 1
  | .vxor d a b => put 19 d + put 14 a + put 9 b + 2
  | .vandn d a b => put 19 d + put 14 a + put 9 b + 3
  | .vorn d a b => put 19 d + put 14 a + put 9 b + 4
  | .vxnor d a b => put 19 d + put 14 a + put 9 b + 5
  | .vshl t d a b => put 3 t + put 19 d + put 14 a + put 9 b + 32
  | .vshr t d a b => put 3 t + put 19 d + put 14 a + put 9 b + 33
  | .vsra t d a b => put 3 t + put 19 d + put 14 a + put 9 b + 34
  | .vrol t d a b => put 3 t + put 19 d + put 14 a + put 9 b + 35
  | .vcmpEq t d a b => put 3 t + put 19 d + put 14 a + put 9 b
  | .vcmpNe t d a b => put 3 t + put 19 d + put 14 a + put 9 b + 1
  | .vcmpLt t d a b => put 3 t + put 19 d + put 14 a + put 9 b + 2
  | .vcmpLe t d a b => put 3 t + put 19 d + put 14 a + put 9 b + 3
  | .vcmpUnLtu t d a b => put 3 t + put 19 d + put 14 a + put 9 b + 4
  | .vcmpOrdLeu t d a b => put 3 t + put 19 d + put 14 a + put 9 b + 5
  | .vsel t d a b => put 3 t + put 19 d + put 14 a + put 9 b
  | .vcvt t s q d a rm => put 3 t + put 0 s + put 9 q + put 19 d + put 14 a + put 6 rm
  | .vcvtu t s q d a rm => put 3 t + put 0 s + put 9 q + put 19 d + put 14 a + put 6 rm + 4096
  | .vexp2 t d a => put 3 t + put 19 d + put 14 a
  | .vlog2 t d a => put 3 t + put 19 d + put 14 a + 1
  | .vsin t d a => put 3 t + put 19 d + put 14 a + 2
  | .vcos t d a => put 3 t + put 19 d + put 14 a + 3
  | .vtanh t d a => put 3 t + put 19 d + put 14 a + 4
  | .vrcp t d a => put 3 t + put 19 d + put 14 a + 5
  | .vrsq t d a => put 3 t + put 19 d + put 14 a + 6
  | .vredSum t d a rm => put 3 t + put 19 d + put 14 a + put 6 rm
  | .vredMin t d a => put 3 t + put 19 d + put 14 a + 1
  | .vredMax t d a => put 3 t + put 19 d + put 14 a + 2
  | .vshuf t d a b => put 3 t + put 19 d + put 14 a + put 9 b
  | .vbcast t d a => put 3 t + put 19 d + put 14 a
  | .vins t d a b => put 3 t + put 19 d + put 14 a + put 9 b + 1
  | .vext t d a b => put 3 t + put 19 d + put 14 a + put 9 b + 2
  | .vrngI32 d a b => put 19 d + put 14 a + put 9 b + 40
  | .vrngF32 d a b => put 19 d + put 14 a + put 9 b + 8
  | .vdrop d a b rm => put 19 d + put 14 a + put 9 b + put 6 rm + 8
  | .vquantE4m3 d a b rm => put 19 d + put 14 a + put 9 b + put 6 rm + 8
  | .vquantE5m2 d a b rm => put 19 d + put 14 a + put 9 b + put 6 rm + 9
  | .vquantInt8 d a b rm => put 19 d + put 14 a + put 9 b + put 6 rm + 10
  | .vdeqE4m3 d a h rm => put 19 d + put 14 a + putBit 9 h + put 6 rm + 8
  | .vdeqE5m2 d a h rm => put 19 d + put 14 a + putBit 9 h + put 6 rm + 9
  | .vdeqInt8 d a h rm => put 19 d + put 14 a + putBit 9 h + put 6 rm + 10
  | .vgab d a b => put 19 d + put 14 a + put 9 b + 8
  | .vgabr d a b rm => put 19 d + put 14 a + put 9 b + put 6 rm + 8
  | .vabf t d a b => put 3 t + put 19 d + put 14 a + put 9 b
  | .vabfadd abf64 d a b => putBit 3 abf64 + put 19 d + put 14 a + put 9 b
  | .vabfx t d a b rm => put 3 t + put 19 d + put 14 a + put 9 b + put 6 rm
  | .vexpmax t d a => put 3 t + put 19 d + put 14 a
  | .aHint bits => put 0 bits
  | .strefused _ => 0
  | .launchMessage _ => 0
  | .taskStart _ => 0
  | .slotWake _ => 0
  | .watchdogForcedSwitch _ => 0
  | .fuseTimeout _ => 0
  | .entryAcceptance _ _ => 0
  | .crystallisation _ _ => 0
  | .barrier _ _ => 0
  | .settleLimit _ _ => 0
  | .barrierRelease _ _ _ => 0
  | .phaseLimit _ => 0
  | .flitArrival _ _ => 0
  | .trecvWindowClose _ _ => 0
  | .dropNotice _ => 0
  | .messageDelivery _ _ _ => 0
  | .undeliverableNotice _ _ => 0
  | .chunkRecord _ _ _ => 0
  | .copyCompletion _ _ => 0
  | .jobStart _ => 0
  | .jobCompletion _ => 0
  | .maskShareCompletion _ _ => 0
  | .mhistCompletion _ _ => 0
  | .retirementCleaned _ _ _ => 0
  | .maskEngineRetry _ _ _ => 0
  | .walkRetry _ => 0
  | .replay _ _ => 0
  | .replayPeriod _ => 0
  | .receiveParityError _ => 0
  | .softErrorCorrected => 0
  | .uncorrectableError _ => 0
  | .vbusParityFailure _ _ => 0
  | .cxlMemRead _ _ _ => 0
  | .cxlMemWrite _ _ _ => 0
  | .registerWrite _ _ _ => 0
  | .ldoor _ _ => 0
  | .claim _ => 0
  | .release _ => 0
  | .handover _ _ => 0
  | .accept _ => 0
  | .handoverLapse => 0
  | .ownerLinkLoss => 0
  | .pcreate _ => 0
  | .pdestroy _ => 0
  | .pinfo _ => 0
  | .fwstage _ _ _ _ => 0
  | .pdevmap _ => 0
  | .slotreg _ => 0
  | .gkillCommand _ => 0
  | .pswitchCheckpoint _ => 0
  | .pswitchOut _ => 0
  | .presume _ => 0
  | .pslice _ => 0
  | .fwactivate _ => 0
  | .telem _ => 0
  | .mstat _ => 0
  | .mlog _ => 0
  | .hmap _ => 0
  | .qrec _ => 0
  | .sppr _ => 0
  | .hppr _ => 0
  | .pwrlim _ => 0
  | .badcmd _ => 0
  | .doeDiscovery _ => 0
  | .getcert _ => 0
  | .getreport _ _ => 0
  | .switchOut _ => 0
  | .switchIn _ => 0
  | .sliceExpiry _ => 0
  | .powerClockStep => 0
  | .thermalShutdown => 0
  | .moduleReset => 0
  | .coreSettled _ _ => 0
  | .linkDown _ => 0
  | .linkUp _ => 0
  | .deviceAccessArrival _ _ _ => 0

/-- The class (1 for A) and major of a syllable (R183, R184); none for an event, which no bundle holds. -/
def opcode : Instr → Option (Nat × Nat)
  | .cnop => some (0, 0x01)
  | .li _ _ => some (0, 0x02)
  | .lix _ _ => some (0, 0x03)
  | .lixHi _ _ => some (0, 0x03)
  | .addi _ _ _ => some (0, 0x04)
  | .movpToScalar _ _ => some (0, 0x05)
  | .movpToPred _ _ => some (0, 0x05)
  | .movpAnd _ _ _ => some (0, 0x05)
  | .movpOr _ _ _ => some (0, 0x05)
  | .movpXor _ _ _ => some (0, 0x05)
  | .movpNot _ _ => some (0, 0x05)
  | .getsr _ _ => some (0, 0x06)
  | .setsr _ _ => some (0, 0x07)
  | .inboxWrite _ _ => none
  | .bankkeyWrite _ _ => none
  | .br _ => some (0, 0x08)
  | .brp _ _ _ => some (0, 0x09)
  | .call _ => some (0, 0x0a)
  | .jr _ _ _ => some (0, 0x0b)
  | .loop _ _ => some (0, 0x0c)
  | .yield => some (0, 0x0d)
  | .fuse _ _ => some (0, 0x0e)
  | .split => some (0, 0x0e)
  | .tend => some (0, 0x0f)
  | .ld _ _ _ _ _ => some (0, 0x10)
  | .ldx _ _ _ _ _ _ => some (0, 0x11)
  | .st _ _ _ _ => some (0, 0x12)
  | .stx _ _ _ _ _ => some (0, 0x13)
  | .vld _ _ _ _ => some (0, 0x14)
  | .vst _ _ _ _ => some (0, 0x15)
  | .vlds _ _ _ _ _ => some (0, 0x16)
  | .vsts _ _ _ _ _ => some (0, 0x17)
  | .vgath _ _ _ _ _ => some (0, 0x18)
  | .vscat _ _ _ _ _ => some (0, 0x19)
  | .amoAdd _ _ _ _ => some (0, 0x1a)
  | .amoSmin _ _ _ _ => some (0, 0x1a)
  | .amoSmax _ _ _ _ => some (0, 0x1a)
  | .amoUmin _ _ _ _ => some (0, 0x1a)
  | .amoUmax _ _ _ _ => some (0, 0x1a)
  | .amoAnd _ _ _ _ => some (0, 0x1a)
  | .amoOr _ _ _ _ => some (0, 0x1a)
  | .amoXor _ _ _ _ => some (0, 0x1a)
  | .amoSwap _ _ _ _ => some (0, 0x1a)
  | .amoCas _ _ _ _ => some (0, 0x1a)
  | .rel _ => some (0, 0x1b)
  | .relf _ _ => some (0, 0x1b)
  | .acq _ _ => some (0, 0x1c)
  | .acqf _ _ _ => some (0, 0x1c)
  | .acqfReread _ => none
  | .acqr _ _ => some (0, 0x1d)
  | .acqrAll => some (0, 0x1d)
  | .fenceCore _ => some (0, 0x1e)
  | .fenceDevice _ => some (0, 0x1e)
  | .fenceSystem _ => some (0, 0x1e)
  | .waitf _ => some (0, 0x1e)
  | .reclaim _ => some (0, 0x1f)
  | .logqStat _ _ => some (0, 0x1f)
  | .logqTail _ => some (0, 0x1f)
  | .logqVoid _ _ => some (0, 0x1f)
  | .logqResend _ _ => some (0, 0x1f)
  | .pref _ _ => some (0, 0x3c)
  | .cpy _ _ => some (0, 0x20)
  | .cpyq _ _ => some (0, 0x21)
  | .send _ _ _ _ => some (0, 0x22)
  | .recv _ => some (0, 0x23)
  | .poll _ => some (0, 0x24)
  | .deq _ => some (0, 0x25)
  | .epn _ => some (0, 0x26)
  | .epnC _ _ => some (0, 0x26)
  | .epnL _ => some (0, 0x26)
  | .chkerr _ => some (0, 0x27)
  | .bar _ => some (0, 0x28)
  | .barC _ => some (0, 0x28)
  | .bargen _ _ => some (0, 0x29)
  | .barwait _ _ => some (0, 0x2a)
  | .ttload _ _ => some (0, 0x2b)
  | .tsend _ _ => some (0, 0x2c)
  | .flitDeparture _ => none
  | .trecv _ _ => some (0, 0x2d)
  | .commend _ => some (0, 0x2e)
  | .mtrx _ _ _ => some (0, 0x2f)
  | .mq _ _ => some (0, 0x30)
  | .mpoll _ _ => some (0, 0x31)
  | .mwait _ => some (0, 0x32)
  | .accld _ _ _ _ => some (0, 0x33)
  | .accst _ _ _ _ => some (0, 0x34)
  | .mbind _ _ => some (0, 0x35)
  | .mver _ _ => some (0, 0x35)
  | .munbind _ => some (0, 0x36)
  | .mreset _ => some (0, 0x36)
  | .mupd _ _ => some (0, 0x37)
  | .mhist _ _ => some (0, 0x37)
  | .trap _ => some (0, 0x38)
  | .gkill _ _ => some (0, 0x38)
  | .eret => some (0, 0x39)
  | .sigchk _ => some (0, 0x3a)
  | .tinv _ _ => some (0, 0x3b)
  | .tinvAll => some (0, 0x3b)
  | .cHint maj _ => some (0, maj.toNat)
  | .add _ _ _ => some (1, 0x01)
  | .sub _ _ _ => some (1, 0x02)
  | .mul _ _ _ => some (1, 0x03)
  | .mulhs _ _ _ => some (1, 0x03)
  | .mulhu _ _ _ => some (1, 0x03)
  | .div _ _ _ => some (1, 0x04)
  | .divu _ _ _ => some (1, 0x04)
  | .rem _ _ _ => some (1, 0x04)
  | .remu _ _ _ => some (1, 0x04)
  | .and _ _ _ => some (1, 0x05)
  | .or _ _ _ => some (1, 0x05)
  | .xor _ _ _ => some (1, 0x05)
  | .andn _ _ _ => some (1, 0x05)
  | .orn _ _ _ => some (1, 0x05)
  | .xnor _ _ _ => some (1, 0x05)
  | .shl _ _ _ => some (1, 0x06)
  | .shr _ _ _ => some (1, 0x06)
  | .sra _ _ _ => some (1, 0x06)
  | .rol _ _ _ => some (1, 0x06)
  | .smin _ _ _ => some (1, 0x07)
  | .smax _ _ _ => some (1, 0x07)
  | .umin _ _ _ => some (1, 0x07)
  | .umax _ _ _ => some (1, 0x07)
  | .clz _ _ => some (1, 0x08)
  | .ctz _ _ => some (1, 0x08)
  | .popc _ _ => some (1, 0x08)
  | .brev _ _ => some (1, 0x08)
  | .bswap _ _ => some (1, 0x08)
  | .cmpEq _ _ _ => some (1, 0x09)
  | .cmpNe _ _ _ => some (1, 0x09)
  | .cmpLt _ _ _ => some (1, 0x09)
  | .cmpLe _ _ _ => some (1, 0x09)
  | .cmpLtu _ _ _ => some (1, 0x09)
  | .cmpLeu _ _ _ => some (1, 0x09)
  | .sel _ _ _ => some (1, 0x0a)
  | .bfx _ _ _ => some (1, 0x0b)
  | .bfi _ _ _ => some (1, 0x0b)
  | .adda _ _ _ => some (1, 0x0c)
  | .fadd _ _ _ _ _ => some (1, 0x10)
  | .fsub _ _ _ _ _ => some (1, 0x11)
  | .fmul _ _ _ _ _ => some (1, 0x12)
  | .ffma _ _ _ _ _ => some (1, 0x13)
  | .fdiv _ _ _ _ _ => some (1, 0x14)
  | .fsqrt _ _ _ _ => some (1, 0x15)
  | .fmin _ _ _ _ => some (1, 0x16)
  | .fmax _ _ _ _ => some (1, 0x16)
  | .fminn _ _ _ _ => some (1, 0x16)
  | .fmaxn _ _ _ _ => some (1, 0x16)
  | .fcmpEq _ _ _ _ => some (1, 0x17)
  | .fcmpNe _ _ _ _ => some (1, 0x17)
  | .fcmpLt _ _ _ _ => some (1, 0x17)
  | .fcmpLe _ _ _ _ => some (1, 0x17)
  | .fcmpUn _ _ _ _ => some (1, 0x17)
  | .fcmpOrd _ _ _ _ => some (1, 0x17)
  | .fcvt _ _ _ _ _ => some (1, 0x18)
  | .fcvtu _ _ _ _ _ => some (1, 0x18)
  | .fclass _ _ _ => some (1, 0x19)
  | .fabs _ _ _ => some (1, 0x1a)
  | .fneg _ _ _ => some (1, 0x1a)
  | .fcpsgn _ _ _ _ => some (1, 0x1a)
  | .exp2 _ _ _ => some (1, 0x1b)
  | .log2 _ _ _ => some (1, 0x1b)
  | .sin _ _ _ => some (1, 0x1b)
  | .cos _ _ _ => some (1, 0x1b)
  | .tanh _ _ _ => some (1, 0x1b)
  | .rcp _ _ _ => some (1, 0x1b)
  | .rsq _ _ _ => some (1, 0x1b)
  | .vadd _ _ _ _ _ => some (1, 0x20)
  | .vsub _ _ _ _ _ => some (1, 0x21)
  | .vmul _ _ _ _ _ => some (1, 0x22)
  | .vfma _ _ _ _ _ => some (1, 0x23)
  | .vmin _ _ _ _ => some (1, 0x24)
  | .vmax _ _ _ _ => some (1, 0x24)
  | .vand _ _ _ => some (1, 0x25)
  | .vor _ _ _ => some (1, 0x25)
  | .vxor _ _ _ => some (1, 0x25)
  | .vandn _ _ _ => some (1, 0x25)
  | .vorn _ _ _ => some (1, 0x25)
  | .vxnor _ _ _ => some (1, 0x25)
  | .vshl _ _ _ _ => some (1, 0x26)
  | .vshr _ _ _ _ => some (1, 0x26)
  | .vsra _ _ _ _ => some (1, 0x26)
  | .vrol _ _ _ _ => some (1, 0x26)
  | .vcmpEq _ _ _ _ => some (1, 0x27)
  | .vcmpNe _ _ _ _ => some (1, 0x27)
  | .vcmpLt _ _ _ _ => some (1, 0x27)
  | .vcmpLe _ _ _ _ => some (1, 0x27)
  | .vcmpUnLtu _ _ _ _ => some (1, 0x27)
  | .vcmpOrdLeu _ _ _ _ => some (1, 0x27)
  | .vsel _ _ _ _ => some (1, 0x28)
  | .vcvt _ _ _ _ _ _ => some (1, 0x29)
  | .vcvtu _ _ _ _ _ _ => some (1, 0x29)
  | .vexp2 _ _ _ => some (1, 0x2a)
  | .vlog2 _ _ _ => some (1, 0x2a)
  | .vsin _ _ _ => some (1, 0x2a)
  | .vcos _ _ _ => some (1, 0x2a)
  | .vtanh _ _ _ => some (1, 0x2a)
  | .vrcp _ _ _ => some (1, 0x2a)
  | .vrsq _ _ _ => some (1, 0x2a)
  | .vredSum _ _ _ _ => some (1, 0x2b)
  | .vredMin _ _ _ => some (1, 0x2b)
  | .vredMax _ _ _ => some (1, 0x2b)
  | .vshuf _ _ _ _ => some (1, 0x2c)
  | .vbcast _ _ _ => some (1, 0x2d)
  | .vins _ _ _ _ => some (1, 0x2d)
  | .vext _ _ _ _ => some (1, 0x2d)
  | .vrngI32 _ _ _ => some (1, 0x2e)
  | .vrngF32 _ _ _ => some (1, 0x2e)
  | .vdrop _ _ _ _ => some (1, 0x2f)
  | .vquantE4m3 _ _ _ _ => some (1, 0x30)
  | .vquantE5m2 _ _ _ _ => some (1, 0x30)
  | .vquantInt8 _ _ _ _ => some (1, 0x30)
  | .vdeqE4m3 _ _ _ _ => some (1, 0x31)
  | .vdeqE5m2 _ _ _ _ => some (1, 0x31)
  | .vdeqInt8 _ _ _ _ => some (1, 0x31)
  | .vgab _ _ _ => some (1, 0x33)
  | .vgabr _ _ _ _ => some (1, 0x34)
  | .vabf _ _ _ _ => some (1, 0x35)
  | .vabfadd _ _ _ _ => some (1, 0x36)
  | .vabfx _ _ _ _ _ => some (1, 0x37)
  | .vexpmax _ _ _ => some (1, 0x38)
  | .aHint _ => some (1, 0x3f)
  | .strefused _ => none
  | .launchMessage _ => none
  | .taskStart _ => none
  | .slotWake _ => none
  | .watchdogForcedSwitch _ => none
  | .fuseTimeout _ => none
  | .entryAcceptance _ _ => none
  | .crystallisation _ _ => none
  | .barrier _ _ => none
  | .settleLimit _ _ => none
  | .barrierRelease _ _ _ => none
  | .phaseLimit _ => none
  | .flitArrival _ _ => none
  | .trecvWindowClose _ _ => none
  | .dropNotice _ => none
  | .messageDelivery _ _ _ => none
  | .undeliverableNotice _ _ => none
  | .chunkRecord _ _ _ => none
  | .copyCompletion _ _ => none
  | .jobStart _ => none
  | .jobCompletion _ => none
  | .maskShareCompletion _ _ => none
  | .mhistCompletion _ _ => none
  | .retirementCleaned _ _ _ => none
  | .maskEngineRetry _ _ _ => none
  | .walkRetry _ => none
  | .replay _ _ => none
  | .replayPeriod _ => none
  | .receiveParityError _ => none
  | .softErrorCorrected => none
  | .uncorrectableError _ => none
  | .vbusParityFailure _ _ => none
  | .cxlMemRead _ _ _ => none
  | .cxlMemWrite _ _ _ => none
  | .registerWrite _ _ _ => none
  | .ldoor _ _ => none
  | .claim _ => none
  | .release _ => none
  | .handover _ _ => none
  | .accept _ => none
  | .handoverLapse => none
  | .ownerLinkLoss => none
  | .pcreate _ => none
  | .pdestroy _ => none
  | .pinfo _ => none
  | .fwstage _ _ _ _ => none
  | .pdevmap _ => none
  | .slotreg _ => none
  | .gkillCommand _ => none
  | .pswitchCheckpoint _ => none
  | .pswitchOut _ => none
  | .presume _ => none
  | .pslice _ => none
  | .fwactivate _ => none
  | .telem _ => none
  | .mstat _ => none
  | .mlog _ => none
  | .hmap _ => none
  | .qrec _ => none
  | .sppr _ => none
  | .hppr _ => none
  | .pwrlim _ => none
  | .badcmd _ => none
  | .doeDiscovery _ => none
  | .getcert _ => none
  | .getreport _ _ => none
  | .switchOut _ => none
  | .switchIn _ => none
  | .sliceExpiry _ => none
  | .powerClockStep => none
  | .thermalShutdown => none
  | .moduleReset => none
  | .coreSettled _ _ => none
  | .linkDown _ => none
  | .linkUp _ => none
  | .deviceAccessArrival _ _ _ => none

/-- Word 1 of a lone instruction: the extension word of LIX, else zero (R179, R205). -/
def encodeExt : Instr → Nat
  | .lix _ imm => imm.toNat % 2 ^ 32
  | .lixHi _ ext => ext.toNat
  | _ => 0

/-- The bundle of a lone instruction; none for an event. -/
def encode (i : Instr) : Option Nat :=
  match opcode i with
  | none => none
  | some (c, m) => some (c * 2 ^ 30 + m * 2 ^ 24 + encodeLow i + encodeExt i * 2 ^ 32)

/-- The bundle of a C syllable and an A syllable that issue together; none where either may not stand there. -/
def encodePair (c a : Instr) : Option Nat :=
  match opcode c, opcode a with
  | some (0, m), some (1, n) =>
    if m = 0x03 then none
    else some (2 ^ 31 + m * 2 ^ 24 + encodeLow c + (n * 2 ^ 24 + encodeLow a) * 2 ^ 32)
  | _, _ => none

end Sys2Proof
end

