-- ==== Sys2Proof/Machine/Bits.lean ====
section
/-! DEFINITION. Bit fields of a quad (R4, R6, R7), sign extension, and byte order (R3). -/

namespace Sys2Proof.Machine

/-- The field of n bits of w whose lowest bit is lo, as a number (R4). -/
def fld (lo n : Nat) (w : Word) : Nat := w.toNat / 2 ^ lo % 2 ^ n

/-- Bit lo of w (R4). -/
def flag (lo : Nat) (w : Word) : Bool := w.toNat / 2 ^ lo % 2 == 1

/-- A quad whose bits lo to lo + n - 1 are ones. -/
def maskOf (lo n : Nat) : Word := BitVec.ofNat 64 ((2 ^ n - 1) * 2 ^ lo)

/-- w with the field of n bits at lo replaced by x. -/
def setFld (lo n x : Nat) (w : Word) : Word :=
  (w &&& ~~~ (maskOf lo n)) ||| (BitVec.ofNat 64 (x % 2 ^ n * 2 ^ lo))

/-- w with bit lo set or cleared. -/
def setFlag (lo : Nat) (b : Bool) (w : Word) : Word := setFld lo 1 b.toNat w

/-- The bits of w chosen by m come from v, the others stay. -/
def mergeMask (m v w : Word) : Word := (w &&& ~~~ m) ||| (v &&& m)

/-- A number as a quad. -/
def word (n : Nat) : Word := BitVec.ofNat 64 n

/-- The number of a signed quad. -/
def signed (w : Word) : Int := w.toInt

/-- The low n bits of x read as a signed number. -/
def sextNat (n x : Nat) : Int :=
  let y := x % 2 ^ n
  if y < 2 ^ (n - 1) then (y : Int) else (y : Int) - (2 ^ n : Nat)

/-- An integer modulo 2 to the n. -/
def wrapInt (n : Nat) (x : Int) : Nat := (x % (2 ^ n : Nat)).toNat

/-- The sign extension of the low n bits of x to a quad. -/
def sextWord (n x : Nat) : Word := BitVec.ofInt 64 (sextNat n x)

/-- The larger of two numbers, saturating count: x + 1, at most 2 to the n minus 1. -/
def satInc (n x : Nat) : Nat := if x + 1 < 2 ^ n then x + 1 else 2 ^ n - 1

/-- The exclusive OR of the low n bits of x (R68). -/
def parity : Nat → Nat → Bool
  | 0, _ => false
  | n + 1, x => (x % 2 == 1) != parity n (x / 2)

/-- The XOR of two numbers below 2 to the 64. -/
def xorNat (a b : Nat) : Nat := Nat.xor a b

/-- Distance from b up to a modulo 2 to the n. -/
def gap (n a b : Nat) : Nat := (a + 2 ^ n - b % 2 ^ n) % 2 ^ n

/-- Sequence a has reached b (R74). -/
def reached (a b : Nat) : Bool := gap 44 a b < 2 ^ 43

/-- Counts of 2 to the 44 (R74, R93). -/
def mod44 (n : Nat) : Nat := n % 2 ^ 44

/-- The next number of a 32-bit counter that skips 0 (R275, R286). -/
def nextId (n : Nat) : Nat := if (n + 1) % 2 ^ 32 = 0 then 1 else (n + 1) % 2 ^ 32

/-- Bytes as a number, least significant first (R3). -/
def leNat : List Byte → Nat
  | [] => 0
  | b :: bs => b.toNat + 256 * leNat bs

/-- The low n bytes of v, least significant first (R3). -/
def bytesOf : Nat → Nat → List Byte
  | 0, _ => []
  | n + 1, v => BitVec.ofNat 8 v :: bytesOf n (v / 256)

/-- The field of n bytes at offset o of a record, as a number (R3). -/
def recNat (o n : Nat) (r : List Byte) : Nat := leNat ((r.drop o).take n)

/-- The number as lanes of w bits, n of them, lane 0 lowest (R186). -/
def lanesOf (w : Nat) : Nat → Nat → List Nat
  | 0, _ => []
  | n + 1, v => v % 2 ^ w :: lanesOf w n (v / 2 ^ w)

/-- Lanes of w bits as a number, lane 0 lowest (R186). -/
def ofLanes (w : Nat) : List Nat → Nat
  | [] => 0
  | x :: xs => x % 2 ^ w + 2 ^ w * ofLanes w xs

/-- The place of the highest one bit plus one, 0 for 0. -/
def bitLen (n : Nat) : Nat := if n = 0 then 0 else Nat.log2 n + 1

end Sys2Proof.Machine
end

