-- ==== Sys2Proof/Machine/Flags.lean ====
section
/-! DEFINITION. The floating-point flags (R108) as one set of seven bits. -/

namespace Sys2Proof.Machine

/-- A set of flags laid out as FPFLAGS[6:0]. -/
abbrev Fl := BitVec 7

/-- No flag. -/
def noFl : Fl := 0
/-- Invalid operation. -/
def nvFl : Fl := 1
/-- Division by zero, or an exact infinite result from a finite input. -/
def dzFl : Fl := 2
/-- Overflow. -/
def ofFl : Fl := 4
/-- Underflow. -/
def ufFl : Fl := 8
/-- Inexact. -/
def nxFl : Fl := 16
/-- A saturating narrowing clamped. -/
def satFl : Fl := 32
/-- A quantiser saturated after its retries. -/
def qsatFl : Fl := 64

/-- A flag when a condition holds. -/
def flIf (b : Bool) (f : Fl) : Fl := if b then f else noFl

/-- The flags of several lanes together (R109). -/
def orFl (fs : List Fl) : Fl := fs.foldl (· ||| ·) noFl

end Sys2Proof.Machine
end

