-- ==== Sys2Proof/Config.lean ====
section
/-! DEFINITION. What an implementation fixes and the spec leaves open: constants without a body, of which nothing can be
computed or proved. -/

namespace Sys2Proof.Config

/-- Which of the values its bound admits a transcendental delivers (R121): by function, type code and operand bits.
Log 10. -/
opaque transcChoice : Nat → Nat → Nat → Nat

/-- What a typed load delivers for an MX element whose product with its scale lies beyond FP32, by scale byte and element
(R57, R114). Log 63. -/
opaque beyondF32 : Nat → Nat → BitVec 32

/-- A free byte, by the number of its draw: what another device's memory answers (R54), and the opaque parts of what the
MC writes (R403, R417). Log 11. -/
opaque freeByte : Nat → Byte

/-- Digests of the MC loader, of the firmware that first runs, and the key material the attestation answers with
(R402, R403): by draw. Log 12. -/
opaque freeDigest : Nat → BitVec 256

/-- A byte of the device's certificate chain, and its length in bytes (R403). Log 12. -/
opaque certByte : Nat → Byte
opaque certLength : Nat

/-- A byte of the ML-DSA-44 signature over a report, by the report's bytes as a number and the byte's place (R403).
Log 12. -/
opaque signatureByte : Nat → Nat → Byte

/-- The bank of a row, and the spare rows beyond its first that a bank has for soft and for hard repairs (R444, R445), by channel
and bank. Log 13. -/
opaque bankOf : Nat → Nat
opaque softSpares : Nat → Nat → Nat
opaque hardFuses : Nat → Nat → Nat

/-- Cycles that a soft repair holds its channel, before they are brought under 380,000 (R444), by draw. Log 80. -/
opaque repairCycles : Nat → Nat

/-- Delays that district boundaries add to flits, before they are brought into their bands (R170), by draw. Log 15. -/
opaque flitDelay : Nat → Nat

/-- What the module's sensors read: power in watts, and the temperature of a district in °C (R439, R446), by draw.
Log 3. -/
opaque powerReading : Nat → Nat
opaque tempReading : Nat → Nat → Nat

/-- The MC's estimate of a save plus a restore, by the number of columns (R426). Log 14. -/
opaque saveEstimate : Nat → Nat

/-- Cycles a save or a restore takes, by draw (R416, R426). Log 14. -/
opaque switchCycles : Nat → Nat

end Sys2Proof.Config
end

