-- ==== Sys2Proof/Machine/Map.lean ====
section
/-! DEFINITION. Sparse tables: a list of key and value pairs in rising order of the keys. Everything the device has
many of (slots, cores, columns, partitions, layers) is held in one, an absent key standing for the reset value. -/

namespace Sys2Proof.Machine

/-- A sparse table. -/
abbrev KMap (α : Type) := List (Nat × α)

/-- The value at key k, or the given default. -/
def lookup {α : Type} (dflt : α) : KMap α → Nat → α
  | [], _ => dflt
  | (i, x) :: m, k => if i = k then x else if k < i then dflt else lookup dflt m k

/-- Whether key k is listed. -/
def listed {α : Type} : KMap α → Nat → Bool
  | [], _ => false
  | (i, _) :: m, k => if i = k then true else if k < i then false else listed m k

/-- The table with x at key k. -/
def insert {α : Type} (x : α) : KMap α → Nat → KMap α
  | [], k => [(k, x)]
  | (i, y) :: m, k => if i = k then (k, x) :: m else if k < i then (k, x) :: (i, y) :: m else (i, y) :: insert x m k

/-- The table without key k. -/
def erase {α : Type} (m : KMap α) (k : Nat) : KMap α := m.filter fun e => e.1 != k

/-- The keys in use. -/
def keys {α : Type} (m : KMap α) : List Nat := m.map (·.1)

/-- Adds a key to a rising list of keys. -/
def addKey (k : Nat) : List Nat → List Nat
  | [] => [k]
  | i :: l => if i = k then i :: l else if k < i then k :: i :: l else i :: addKey k l

/-- The first element a test accepts, with its place. -/
def firstIdx {α : Type} (p : α → Bool) : List α → Nat → Option (Nat × α)
  | [], _ => none
  | x :: l, n => if p x then some (n, x) else firstIdx p l (n + 1)

/-- The list with f applied at place n. -/
def modifyAt {α : Type} (f : α → α) : List α → Nat → List α
  | [], _ => []
  | x :: l, 0 => f x :: l
  | x :: l, n + 1 => x :: modifyAt f l n

/-- The list with f applied to every element a test accepts. -/
def updateIf {α : Type} (p : α → Bool) (f : α → α) (l : List α) : List α := l.map fun x => if p x then f x else x

/-- The numbers from lo, n of them. -/
def upFrom : Nat → Nat → List Nat
  | _, 0 => []
  | lo, n + 1 => lo :: upFrom (lo + 1) n

end Sys2Proof.Machine
end

