-- ==== Sys2Proof/Machine/State.lean ====
section
/-! DEFINITION. The state of the W2: every slot, core, column, partition, engine, message and flit, the MC and the
host ports, with memory at its homes. Sparse tables hold what differs from reset. -/

namespace Sys2Proof.Machine

/-! ## Memory at its homes (R71) -/

/-- Bytes at home: strictly rising home keys, no byte equal to what an unlisted key reads as. HBM bytes stand under
their physical address; bytes of columns, scratchpads and accumulator stores under keys above them (Machine/Home). -/
abbrev Memory := List Host.Cell

/-- What a byte that nothing has written reads as. DESIGN CHOICE (log 1): the spec gives memory no contents at reset. -/
def Memory.unwritten : Byte := 0

/-- The byte at home key k. -/
def Memory.read : Memory → Nat → Byte
  | [], _ => Memory.unwritten
  | (i, b) :: m, k => if i = k then b else if k < i then Memory.unwritten else Memory.read m k

/-- Writes byte b at home key k, keeping the canonical form. -/
def Memory.write (b : Byte) : Memory → Nat → Memory
  | [], k => if b = Memory.unwritten then [] else [(k, b)]
  | (i, c) :: m, k =>
    if i = k then (if b = Memory.unwritten then m else (k, b) :: m)
    else if k < i then (if b = Memory.unwritten then (i, c) :: m else (k, b) :: (i, c) :: m)
    else (i, c) :: Memory.write b m k

/-- Every key of the memory is above k. -/
def Memory.above (k : Nat) : Memory → Bool
  | [] => true
  | (i, _) :: _ => k < i

/-- The canonical form: keys strictly rising, no entry equal to an unwritten byte. -/
def Memory.wf : Memory → Bool
  | [] => true
  | (i, b) :: m => b != Memory.unwritten && Memory.above i m && Memory.wf m

/-! ## Slots -/

/-- Where a slot stands (R41). A READY slot named by its core's `issuing` is the ISSUING one. -/
inductive Status where
  /-- no task -/
  | free
  /-- a task able to issue -/
  | ready
  /-- a task waiting for its condition -/
  | asleep
  deriving DecidableEq, Repr

/-- What a sleeping slot waits for. -/
inductive Cond where
  /-- nothing -/
  | none
  /-- RECV: a record in the ring (R283) -/
  | record
  /-- MWAIT: completion of a job posted (R317) -/
  | job (id : Nat)
  /-- WAITF: the token's accesses performed (R93) -/
  | fence (token : Word)
  /-- BARWAIT: the group's generation past v (R157) -/
  | generation (group v : Nat)
  /-- BAR or TEND: its own copies, jobs and requests completed (R154, R219) -/
  | work
  /-- BAR, or a TEND that counts as arrival: the barrier's outcome (R155, R161) -/
  | barrier
  /-- FUSE: the gang of this mask, or the end of the time limit (R47) -/
  | gang (mask deadline : Nat)
  /-- a store into a full log: a raked pan (R78) -/
  | logRoom
  /-- COMMEND, also inside BAR, TEND and MTRX: windows, flits and notices (R174) -/
  | phase
  /-- ACQ: writer w has published q (R86) -/
  | published (w q : Nat)
  /-- ACQF: the flag word at this home key has reached q, or was lost (R87) -/
  | flagWord (key q : Nat)
  /-- ACQF: it has read this word, which lets it go on (R87) -/
  | flagSeen (word : Word)
  /-- an access behind a migrating page: a TINV, or 1,024 cycles (R412) -/
  | migration (va : Word)
  /-- REL and its kin, and atomics: entries not yet accepted or refused, or not yet crystallised -/
  | entries
  /-- the implicit release of BAR and TEND: every entry answered, or one refused (R90, R95) -/
  | release
  /-- a view line that goes: an entry it records is not home yet; with the flag word that an ACQF has read (R80, R87,
  R88, R94) -/
  | lines (seen : Option Word)
  /-- TINV: entries accepted under a translation it removes are not home yet (R413) -/
  | removed
  /-- an answer that comes from this wafer time on (R42, R192) -/
  | answer (due : Nat)
  /-- MRESET: the layer's work done (R324) -/
  | layerIdle (layer : Nat)
  deriving DecidableEq, Repr

/-- A trap taken by a sleeper of this kind finds its bundle unperformed and held (R90, R187). -/
def Cond.held : Cond → Bool
  | .record | .job _ | .fence _ | .generation _ _ | .work | .barrier | .gang _ _ | .logRoom | .release => true
  | _ => false

/-- What a result in flight writes when it lands (R188, R193). -/
inductive Landing where
  | sreg (r : SReg) (v : Word)
  | vreg (r : VReg) (v : Vec)
  | preg (r : PReg) (v : Bool)
  /-- flags ORed into FPFLAGS (R109) -/
  | fpflags (f : BitVec 7)
  /-- bytes of a block in the own scratchpad, and under whose journal they are written (R162, R245) -/
  | block (who : Option (Nat × Nat × Nat)) (o : Nat) (bytes : List Byte)
  /-- stall cycles counted in STALLS (R70, R336) -/
  | stalls (n : Nat)
  /-- a dropped hint counted in DROPHINT (R336, R414) -/
  | dropped
  /-- a SETSR taking effect (R193) -/
  | sysreg (n : Nat) (v : Word)
  /-- a log entry leaving the core for its home's NI (R76, R192) -/
  | sent (seq : Nat)
  deriving DecidableEq, Repr

/-- A result in flight: issue cycles left, and what lands (R189). -/
structure InFlight where
  left : Nat
  what : Landing
  deriving DecidableEq, Repr

/-- The register files of a slot (R186). -/
structure Regs where
  s : Vector Word 32
  v : Vector Vec 32
  p : Vector Bool 8
  deriving DecidableEq, Repr

/-- The register files of a task's start state without its arguments (R39): p0 true, all else zero. -/
def Regs.start : Regs :=
  { s := Vector.replicate 32 0, v := Vector.replicate 32 0, p := (Vector.replicate 8 false).set 0 true }

/-- An open hardware loop (R214). -/
structure LoopEntry where
  start : Word
  last : Word
  remaining : Word
  deriving DecidableEq, Repr

/-- The system registers of one slot, but for those a trap writes (R332). -/
structure SlotSys where
  coord : Word
  tgext : Word
  slotcfg : Word
  fpflags : Word
  chkint : Word
  wincfg : Word
  winseed : Word
  mxscale : Word
  geom : Word
  inbox : Word
  msglat : Word
  stalls : Word
  drophint : Word
  prgn : Vector Word 8
  deriving DecidableEq, Repr

/-- The registers that support traps (R334, R335). -/
structure TrapRegs where
  cause : Word
  pc : Word
  addr : Word
  seq : Word
  status : Word
  scr0 : Word
  scr1 : Word
  deriving DecidableEq, Repr

/-- How far a log entry has come (R76). Publication and raking are read from the release cell and the pans. -/
inductive EntryState where
  | appended
  | sent
  | accepted
  /-- refused, with the reason of R269 -/
  | refused (reason : Nat)
  | crystallised
  | voided
  deriving DecidableEq, Repr

/-- A log entry (R73, R74). -/
structure Entry where
  seq : Nat
  /-- virtual address of the store, for TRAPADDR -/
  va : Word
  /-- bytes by virtual address -/
  cells : List (Word × Byte)
  /-- home keys of the bytes once accepted, else empty -/
  homes : List Nat
  state : EntryState
  /-- the pan that holds it, counted from the partition's creation -/
  pan : Nat
  /-- a RAW vector store, whose class the page checks (R258) -/
  raw : Bool
  /-- its pan has met an error that could not be corrected (R432) -/
  bad : Bool
  /-- a STREFUSED is still due for its refusal (R90) -/
  trapDue : Bool
  /-- its crystallisation is forced, and follows its acceptance (R77, R79) -/
  forced : Bool
  /-- cores on which the drop of a view line waits for it (R80) -/
  awaited : List Nat
  /-- home keys in lines of its slot's view that may be those of its bytes, while these cannot be told (R81) -/
  loose : List Nat
  /-- a TINV that removed its translation waits for it (R413) -/
  removed : Bool
  /-- the pages, as base and bytes in {region, offset}, under whose translations it was accepted (R413) -/
  pages : List (Nat × Nat)
  /-- barrier group its write is journalled under (R163, R165) -/
  group : Option Nat
  /-- access ordinal of its store (R93) -/
  ord : Nat
  deriving DecidableEq, Repr

/-- A slot's log (R73, R74). -/
structure SlotLog where
  seq : Nat
  entries : List Entry
  /-- number of the pan being filled -/
  pan : Nat
  /-- bytes used in it -/
  fill : Nat
  deriving DecidableEq, Repr

/-- The 32-bit counters of a slot (R275, R286, R309, R327). -/
structure Counters where
  msgno : Nat
  copyId : Nat
  jobId : Nat
  reqId : Nat
  deriving DecidableEq, Repr

/-- What a task was started with (R39, R51, R165). -/
structure Task where
  entry : Word
  args : Word
  deriving DecidableEq, Repr

/-- A gang: its slots, leader first (R47). -/
structure Gang where
  members : List Nat
  /-- members whose FUSE has yet to complete -/
  joining : List Nat
  deriving DecidableEq, Repr

/-- What a restore gives back to a slot (R51, R162, R332). -/
structure Snapshot where
  regs : Regs
  flight : List InFlight
  pc : Word
  loops : List LoopEntry
  sig : BitVec 16
  fpflags : Word
  wincfg : Word
  winseed : Word
  mxscale : Word
  geom : Word
  msglat : Word
  /-- head of the inbox, as a byte count (R277) -/
  head : Nat
  stoch : Nat
  counters : Counters
  /-- the barrier before which this was taken armed the slot as a participant -/
  participant : Bool
  /-- the gang it stood in (R49, R162) -/
  gang : Option Gang
  deriving DecidableEq, Repr

/-- Where a member stands at its barrier (R154, R155). -/
inductive BarStand where
  /-- not arrived -/
  | away
  /-- arrived; whether as a participant, and whether by TEND (R161) -/
  | arrived (participant tend : Bool)
  /-- the barrier continued; the BAR completes with this generation -/
  | passed (gen : Nat) (participant : Bool)
  deriving DecidableEq, Repr

/-- The C syllable of an instruction that issued and sleeps, with the registers it read and what it sleeps for
(R187). -/
structure Redo where
  instr : Instr
  cond : Cond
  /-- its bundle -/
  ir : Word
  /-- the register files of its issue cycle -/
  read : Regs
  /-- the registers and flags to leave when it traps after all, and the bytes that a block of the A syllable beside it
  replaced -/
  undo : Regs
  undoFlags : Word
  undoBlocks : List (Nat × List Byte)
  /-- the loop stack its end test goes by (R48, R216) -/
  loops : List LoopEntry
  deriving DecidableEq, Repr

/-- A record in an inbox overflow area, with the barrier group whose work it reports (R162, R281). -/
structure Spill where
  bytes : List Byte
  work : Option Nat
  deriving DecidableEq, Repr

/-- One slot of one core. -/
structure Slot where
  status : Status
  cond : Cond
  regs : Regs
  pc : Word
  loops : List LoopEntry
  sig : BitVec 16
  savedSig : BitVec 16
  /-- results in flight, oldest first -/
  flight : List InFlight
  /-- wafer cycle of its core by which the results it left in flight at a switch have landed (R43) -/
  landedAt : Nat
  sys : SlotSys
  trap : TrapRegs
  /-- watchdog count (R44) -/
  wd : Nat
  /-- stochastic-store counter (R111) -/
  stoch : Nat
  log : SlotLog
  /-- highest published sequence, and whether its release cell is poisoned (R82, R432) -/
  pub : Nat
  pubBad : Bool
  /-- barrier mark (R85, R95) -/
  mark : Nat
  /-- replay records, most recently acquired first (R85) -/
  replays : List (Nat × Nat)
  /-- access ordinal (R93) -/
  ordinal : Nat
  counters : Counters
  /-- records in the inbox overflow area (R281), oldest first -/
  spilled : List Spill
  /-- records in the ring that report work of a group's superstep under way: tail before each, and the group (R162) -/
  works : List (Nat × Nat)
  /-- barrier group a service slot is charged to (R165) -/
  charge : Option Nat
  /-- groups it has been charged to since each one's last barrier -/
  charged : List Nat
  task : Option Task
  snap : Option Snapshot
  bar : BarStand
  redo : Option Redo
  /-- the running handler serves a QUAR trap (R155, R340) -/
  quar : Bool
  /-- its FUSE's time limit has passed (R47) -/
  fuseOut : Bool
  deriving DecidableEq, Repr

/-- A view line (R80): slot number, line key, the virtual line it was replayed through, bytes with their mask, and
writers with their highest sequences. -/
structure ViewLine where
  slot : Nat
  line : Nat
  vline : Word
  bytes : List (Nat × Byte)
  writers : List (Nat × Nat)
  /-- its bytes are poisoned (R432) -/
  bad : Bool
  deriving DecidableEq, Repr

/-! ## Cores -/

/-- A receive window (R173, R298). -/
structure Window where
  port : Nat
  opens : Nat
  width : Nat
  /-- scratchpad offset of the buffer -/
  base : Nat
  /-- flits it can hold -/
  cap : Nat
  got : Nat
  /-- an MTRX window: flits a fragment; none for a TRECV window -/
  frag : Option Nat
  closed : Bool
  deriving DecidableEq, Repr

/-- Flits of a TSEND, or of one step of an MTRX, still to leave (R169, R175). -/
structure Sending where
  /-- wafer time at which the next flit leaves -/
  depart : Nat
  left : Nat
  /-- scratchpad offset of its bytes -/
  off : Nat
  /-- key of the receiving core -/
  dst : Nat
  port : Nat
  lane : Nat
  /-- sender's index of an MTRX and the flit's number in its fragment -/
  mtrx : Option (Nat × Nat)
  deriving DecidableEq, Repr

/-- The communication phase a core is in (R166 to R174). -/
structure Phase where
  slot : Nat
  /-- district counter value of offset 0 -/
  t0 : Nat
  windows : List Window
  /-- offset after the last flit sent -/
  sentEnd : Nat
  /-- flits written into its windows -/
  got : Nat
  sends : List Sending
  /-- its COMMEND has been executed, and may sleep (R167, R174) -/
  ending : Bool := false
  deriving DecidableEq, Repr

/-- A message in a send queue or under way (R275, R276). -/
structure Msg where
  src : Nat
  srcEp : Word
  dst : Word
  msgno : Nat
  payload : List Byte
  /-- forwarding stubs it has met, streets it crosses, and whether it rides virtual channel 1 (R276, R381) -/
  stubs : Nat
  hops : Nat
  vc1 : Bool
  /-- wafer time of its release -/
  born : Nat
  /-- it was under way when the routing tables were rewritten, and goes on as they stood before (R380) -/
  old : Bool := false
  deriving DecidableEq, Repr

/-- One core. -/
structure Core where
  issuing : Option Nat
  /-- slot last issued (R42) -/
  last : Nat
  /-- view lines, most recently used first -/
  view : List ViewLine
  margin : Word
  replays : Word
  mweight : Word
  /-- timetable (R168) -/
  timetable : KMap Word
  phase : Option Phase
  /-- wafer cycles the core has lived through -/
  now : Nat
  /-- consecutive replays and their address (R429) -/
  consec : Nat
  consecPc : Word
  /-- the bundle whose next issue the MC makes a shadow latch mismatch on request (R384) -/
  armed : Option Word
  /-- replays at offset 0 in this period, and the period (R430) -/
  atZero : Nat
  period : Nat
  failing : Bool
  /-- another device has reached its scratchpad since the core's last access (R70) -/
  probed : Bool
  deriving DecidableEq, Repr

/-- A timetabled flit in flight (R169, R170, R173). -/
structure Flit where
  /-- key of the sending slot -/
  src : Nat
  /-- its participant's task has ended -/
  orphan : Bool
  /-- key of the receiving core -/
  dst : Nat
  port : Nat
  /-- sender's index of an MTRX flit and its place in the fragment -/
  mtrx : Option (Nat × Nat)
  bytes : List Byte
  /-- wafer time of its writing at the receiver -/
  arrives : Nat
  /-- lanes it takes: crossing, direction, lane and wafer time -/
  lanes : List (Nat × Nat × Nat × Nat)
  /-- dropped for want of a participant; its notice is on the way back -/
  notice : Bool
  /-- wafer time at which a collision takes it -/
  lostAt : Option Nat
  deriving DecidableEq, Repr

/-! ## Journals (R163, R435) -/

/-- The line as it stood before a group's first write to it in a superstep. -/
structure JournalRec where
  part : Nat
  group : Nat
  /-- home key of the line divided by 64 -/
  line : Nat
  bytes : List Byte
  poison : Bool
  /-- the tasks that wrote the line, each with the bytes it wrote as a mask (R161) -/
  writers : List (Nat × Nat)
  deriving DecidableEq, Repr

/-- A leaf kept by an NI (R409). -/
structure CachedLeaf where
  part : Nat
  /-- the NI: HBM channels by number, column NIs by 768 + logical column -/
  ni : Nat
  /-- va[41:16] of the page and log2 of its size -/
  page : Nat
  size : Nat
  entry : Word
  /-- home key of the entry -/
  home : Nat
  deriving DecidableEq, Repr

/-! ## Engines -/

/-- A copy in flight (R285 to R290). -/
structure Copy where
  slot : Nat
  id : Nat
  dst : Word
  src : Word
  len : Nat
  tag : Nat
  /-- flags of the descriptor: chunk records, accumulator source, accumulator destination -/
  chunked : Bool
  accSrc : Bool
  accDst : Bool
  notify : Word
  /-- barrier group the writes are journalled under, and whether the records charge -/
  group : Option Nat
  charged : Bool
  /-- chunks of 4,096 bytes at home, and those whose record has been posted or discarded -/
  done : List Nat
  posted : List Nat
  running : Bool
  poison : Bool
  notifyLost : Bool
  resumed : Bool
  /-- its task was killed, so its completion is discarded (R40) -/
  orphan : Bool
  /-- wafer time of its release (R192) -/
  due : Nat
  /-- the device map it was checked against (R396) -/
  devmap : List Word
  /-- its unit holds a record of it for which there is no room (R281) -/
  held : Bool
  deriving DecidableEq, Repr

/-- A matrix job from MQ to its completion (R309). -/
structure Job where
  slot : Nat
  id : Nat
  desc : List Byte
  geom : Word
  /-- tile row and column; none for an EMPTY job (R305) -/
  tile : Option (Nat × Nat)
  group : Option Nat
  charged : Bool
  running : Bool
  resumed : Bool
  orphan : Bool
  /-- wafer time of its release (R192) -/
  due : Nat
  /-- address of the layer descriptor, and what reading it at the issue gave: its bytes, or a fault, or neither while its
  page migrates (R129, R412) -/
  descAt : Word
  ldesc : List Byte
  fault : Option Nat
  /-- its cells have started, and the chunks, or steps of DF64, whose products they hold (R313), with the flags these
  raised, whether one saturated, and whether a poisoned operand was read -/
  begun : Bool
  chunks : Nat
  flags : BitVec 7
  sat : Bool
  bad : Bool
  deriving DecidableEq, Repr

/-- The round-robin place of a block's matrix engine: the core served and the jobs it may still start (R310). -/
structure Engine where
  core : Nat
  turns : Nat
  deriving DecidableEq, Repr

/-- A mask request in flight (R325 to R328). -/
structure MaskReq where
  slot : Nat
  id : Nat
  hist : Bool
  desc : List Byte
  group : Option Nat
  charged : Bool
  orphan : Bool
  /-- status of a request that completed at once when it was issued: DEFER under a reset mark (R324) -/
  deferred : Bool
  /-- wafer time of its release (R192) -/
  due : Nat
  /-- address of the layer descriptor, and what reading it at the issue gave: its bytes, or a fault, or neither while
  its page migrates (R129, R412) -/
  descAt : Word
  ldesc : List Byte
  fault : Option Nat
  /-- its engine holds its completion, for which there is no room (R281) -/
  held : Bool
  deriving DecidableEq, Repr

/-- State of a ring slot (R140). -/
inductive RingState where
  | free
  | building
  | ready
  | current
  | superseded
  | retired
  deriving DecidableEq, Repr

/-- One slot of a layer's ring (R140, R142). -/
structure RingSlot where
  state : RingState
  ver : Nat
  bound : Nat
  /-- bound count at the last barrier, which a rollback gives back (R145) -/
  boundAt : Nat
  /-- it left FREE, or became READY, in the superstep under way (R141, R145) -/
  born : Bool
  /-- parts in whose records the engines still have to clear its hold bit (R145, R448) -/
  clearing : List Nat
  /-- its version is given up, and it is FREE once that is done -/
  giveUp : Bool
  /-- the cleaning of its RETIRED version stands at a page that refuses it (R449) -/
  stalled : Bool
  deriving DecidableEq, Repr

/-- A part's selector (R150). -/
structure Selector where
  /-- a job's keys have reached it -/
  taken : Bool
  mode : Nat
  d : Nat
  mixed : Bool
  /-- grow key and flat index, at most one entry for an index -/
  cands : List (Nat × Nat)
  deriving DecidableEq, Repr

/-- A layer's version ring and selectors (R140 to R150). -/
structure Layer where
  ring : Vector RingSlot 4
  /-- last version number used, and at the last barrier -/
  last : Nat
  lastAt : Nat
  /-- marked for reset (R324) -/
  marked : Bool
  /-- parts whose share of the update under way has completed, and at the last barrier -/
  done : List Nat
  doneAt : List Nat
  install : Bool
  selectors : KMap Selector
  /-- the descriptor as the home last read it (R129, R309) -/
  desc : List Byte
  /-- the descriptor with which the update under way was started (R448) -/
  built : List Byte
  deriving DecidableEq, Repr

/-! ## Partitions -/

/-- State of a dependency token (R31). -/
inductive Token where
  | done
  | pending
  | failed
  deriving DecidableEq, Repr

/-- A live task group (R30 to R40). -/
structure Group where
  tgid : Nat
  entry : Word
  args : Word
  /-- bits [28:0] laid out as TGEXT -/
  ext : Nat
  sig : Nat
  bgrp : Nat
  /-- tokens it still waits for (R31, R37) -/
  waits : List Nat
  /-- tasks started, by logical cluster 24 Y + X -/
  started : KMap Nat
  ended : Nat
  deriving DecidableEq, Repr

/-- A launch message at the endpoint: its bytes and the slot, endpoint and number to answer, or none for the host. -/
structure Launch where
  bytes : List Byte
  sender : Option (Nat × Word × Nat)
  deriving DecidableEq, Repr

/-- Where a barrier stands between its last arrival and its release (R155, R156). -/
inductive BarStage where
  | gathering
  /-- step 6 runs since this wafer time, and the cores of these participants have yet to settle (R431) -/
  | settling (since : Nat) (left : List Nat)
  /-- step 6 ended at this wafer time, and the release is due -/
  | settled (at_ : Nat)
  deriving DecidableEq, Repr

/-- One barrier group (R155 to R157). -/
structure Bar where
  gen : Nat
  stage : BarStage
  /-- error bits carried from a charged service task's TEND (R165) -/
  carried : Word
  /-- members that are to resume at the release -/
  resume : List Nat
  /-- the participants among them, one to a core (R166) -/
  armed : List Nat
  /-- lost columns on which the group came to depend (R159) -/
  lostCols : List Nat
  deriving DecidableEq, Repr

/-- A gang switch asked for (R416 to R422). -/
structure SwitchReq where
  /-- out until PRESUME, or a checkpoint -/
  out : Bool
  base : Nat
  due : Nat
  /-- port to answer; none for a slice -/
  port : Option Nat
  deriving DecidableEq, Repr

/-- The image of a partition that is out (R417 to R422). -/
structure Image where
  base : Nat
  /-- draw of the bytes of its header and opaque areas -/
  bytes : Nat
  /-- switch time Ts, and the cycles of the save -/
  ts : Nat
  save : Nat
  /-- a checkpoint, which comes back by itself -/
  checkpoint : Bool
  /-- the port that waits has asked for it by PRESUME -/
  byResume : Bool
  /-- its restore is due, and the port to answer if one waits -/
  back : Option (Option Nat)
  deriving DecidableEq, Repr

/-- A standing slice (R425). -/
structure Slice where
  base : Nat
  len : Nat
  /-- wafer time it counts from, and the slice in use -/
  since : Nat
  use : Nat
  /-- wafer time at which its next checkpoint falls due, once the slice has run out -/
  pending : Option Nat
  deriving DecidableEq, Repr

/-- A partition and its context (R29, R332, R394, R416). -/
structure Part where
  px : Nat
  py : Nat
  w : Nat
  h : Nat
  /-- the PCREATE request -/
  request : List Byte
  root : Nat
  trapvec : Word
  /-- BANKKEY in force, and as last written (R69) -/
  bankkey : Word
  bankkeyKept : Word
  ltbase : Word
  saveest : Word
  devmap : List Word
  tokens : KMap Token
  groups : List Group
  nextTgid : Nat
  launches : List Launch
  bars : KMap Bar
  layers : KMap Layer
  /-- its image while it is out -/
  out : Option Image
  /-- wafer time at which the last phase ended, or the last barrier released (R419) -/
  calm : Nat
  /-- wafer time from which its cores issue, after a restore (R422) -/
  resumeAt : Nat
  /-- the switch that a port's command asked for -/
  switchReq : Option SwitchReq
  slice : Option Slice
  deriving DecidableEq, Repr

/-! ## The MC and the hosts -/

/-- The HDM decoder of a port: its range, and over how many ports it interleaves granules of how many bytes (R385,
R386). -/
structure Decoder where
  base : Nat
  size : Nat
  ways : Nat
  gran : Nat
  deriving DecidableEq, Repr

/-- A host port (R385, R388, R393, R400). -/
structure Port where
  up : Bool
  /-- wafer time at which the link went down -/
  downAt : Option Nat
  dropped : Nat
  dropAddr : Nat
  mbxcmd : Nat
  /-- the port owned the device when the command was written (R392) -/
  cmdOwned : Bool
  busy : Bool
  result : Nat
  request : List Byte
  response : List Byte
  hdm : Decoder
  /-- the base address register BAR0, 64 bits wide (R385) -/
  bar0 : Word
  /-- MSI-X Enable and Function Mask, in configuration space -/
  msixOn : Bool
  msixMask : Bool
  /-- MSI-X table and pending bits by BAR0 offset -/
  msix : Memory
  /-- signals sent: MSI-X vectors delivered since reset, by count -/
  signals : KMap Nat
  deriving DecidableEq, Repr

/-- A launch page (R399). -/
structure LaunchPage where
  msg : List Byte
  busy : Bool
  valid : Bool
  count : Nat
  watch : Word
  record : List Byte
  deriving DecidableEq, Repr

/-- An OWNCTL write that has reached the MC, and the wafer time at which its round ends (R390). -/
structure OwnWrite where
  port : Nat
  op : Nat
  target : Nat
  ends : Nat
  deriving DecidableEq, Repr

/-- Whose access waits at a home's NI. -/
inductive Asker where
  /-- CXL.mem of a port -/
  | port
  /-- another device, and the kind of its access -/
  | device (kind : BitVec 2)
  /-- the slot of this key, asleep behind the NI -/
  | slot (k : Nat)
  deriving DecidableEq, Repr

/-- An access that waits at the NI of a channel under repair, or one from another device for a partition that is out or a
migrating page: its address, the HBM byte that names, its length, and what it writes (R387, R412, R421, R444). -/
structure HostAccess where
  port : Nat
  addr : Nat
  key : Nat
  len : Nat
  bytes : Option (List Byte)
  asker : Asker := .port
  deriving DecidableEq, Repr

/-- Ownership and the host ports (R389 to R400). -/
structure HostSide where
  owned : Bool
  owner : Nat
  hpend : Bool
  target : Nat
  /-- wafer time at which the pending handover was written -/
  handoverAt : Nat
  /-- OWNCTL writes that the MC has yet to take, and accesses that wait at NIs, in order of arrival -/
  ownWrites : List OwnWrite
  waiting : List HostAccess
  epoch : Nat
  ports : KMap Port
  pages : KMap LaunchPage
  /-- commands taken by the MC, in order of their MBXCMD writes: ports -/
  order : List Nat
  /-- data the last read from outside returned (CXL.mem, DOE, another device), with its poison indication -/
  readData : List Byte
  readPoison : Bool
  deriving DecidableEq, Repr

/-- An event of the margin log (R441). -/
structure MarginEvent where
  time : Nat
  lcol : Nat
  core : Nat
  kind : Nat
  offset : Nat
  /-- an MLOG has returned it -/
  seen : Bool
  deriving DecidableEq, Repr

/-- The MC: what it measures, keeps and counts (R171, R172, R401, R402, R428, R439 to R447). -/
structure Mc where
  device : Nat
  /-- HBM bytes on the module, rounded as R386 gives -/
  hbmtop : Nat
  /-- boundary latency table and district offsets -/
  blt : KMap Word
  timeofs : KMap Word
  /-- harvest words by physical cluster (R442) -/
  harvest : KMap Word
  /-- physical block (25 × cluster + block) of a logical column, where a quarantine has moved it -/
  moved : KMap Nat
  /-- logical columns that have no place (R18, R437) -/
  unplaced : List Nat
  /-- crossings recorded dead since bring-up (R380) -/
  crossings : List Nat
  /-- physical blocks (25 × cluster + block) quarantined since bring-up, which are not used again (R437) -/
  retired : List Nat
  meas : List (BitVec 256)
  secver : Nat
  staged : Option (Nat × BitVec 256)
  activate : Bool
  /-- digest of the running firmware, none for the one that first ran -/
  fw : Option (BitVec 256)
  softErrors : Nat
  poisonLines : Nat
  vbusRepeats : Nat
  raises : KMap Nat
  marginLog : List MarginEvent
  qrecs : List (List Byte)
  /-- how many of them earlier runs wrote -/
  qrecsBefore : Nat
  /-- soft repairs that may still run: channel, and the wafer time at which it is released (R444) -/
  repairing : List (Nat × Nat)
  softRepairs : List (Nat × Nat)
  hardRepairs : List (Nat × Nat)
  /-- rows repaired hard, which hold fuses -/
  hardDone : List (Nat × Nat)
  softDone : Nat
  cap : Nat
  clock : Nat
  lastClock : Nat
  power : Nat
  temps : List Nat
  stopped : Bool
  deriving DecidableEq, Repr

/-! ## The whole -/

/-- What the syllables of the bundle under way did to control. -/
inductive Flow where
  /-- go on at the next bundle -/
  | seq
  /-- control transferred by a branch; whether it may leave a loop (R191, R216) -/
  | taken (target : Word) (leaves : Bool)
  /-- ERET: pc is set already; whether it sleeps for a SETSR's release (R42, R343) -/
  | jumped (slept : Bool)
  /-- the instruction performs and the slot sleeps until its answer comes back (R42, R192) -/
  | answered
  /-- an instruction that slept has completed, its end test to be taken on this stack (R187, R216) -/
  | resumed (stack : List LoopEntry)
  /-- a trap was taken -/
  | trapped
  /-- the slot sleeps and the bundle issues again when it wakes -/
  | held
  /-- the instruction issued, and the slot sleeps until it completes -/
  | slept
  /-- the bundle completed and is a switch point, the slot READY (R42) -/
  | switched
  /-- the task ended -/
  | ended
  deriving DecidableEq, Repr

/-- An entry of the input tape: an event of an agent outside the issuing cores, or a core's turn to issue. -/
inductive Input where
  | event (i : Instr)
  | turn (core : Nat)
  deriving DecidableEq, Repr

/-- The state of the machine. -/
structure State where
  mem : Memory
  /-- poisoned lines: home key divided by 64, rising (R432) -/
  poison : List Nat
  slots : KMap Slot
  cores : KMap Core
  parts : KMap Part
  gangs : List Gang
  journal : List JournalRec
  /-- columns declared lost (R433) -/
  lost : List Nat
  tlb : List CachedLeaf
  /-- whether an NI keeps the leaves it walks (R409); a model parameter, log 6 -/
  niKeep : Bool
  copies : List Copy
  jobs : List Job
  engines : KMap Engine
  masks : List MaskReq
  msgs : List Msg
  flits : List Flit
  host : HostSide
  mc : Mc
  /-- wafer time (R11) -/
  time : Nat
  /-- key of the slot that issues -/
  cur : Nat
  /-- the bundle it issues -/
  ir : Word
  flow : Flow
  /-- draws made of free values -/
  fresh : Nat
  inputs : List Input
  deriving DecidableEq, Repr

/-! ## The machine right after reset -/

/-- System registers of a slot after reset: all zero but SLOTCFG.wdexp, 21 (R44, R332). -/
def SlotSys.reset : SlotSys :=
  { coord := 0, tgext := 0, slotcfg := 21, fpflags := 0, chkint := 0, wincfg := 0, winseed := 0, mxscale := 0,
    geom := 0, inbox := 0, msglat := 0, stalls := 0, drophint := 0, prgn := Vector.replicate 8 0 }

/-- The trap registers after reset (R334, R335). -/
def TrapRegs.reset : TrapRegs := { cause := 0, pc := 0, addr := 0, seq := 0, status := 0, scr0 := 0, scr1 := 0 }

/-- An empty log, its counter 0 (R74). -/
def SlotLog.reset : SlotLog := { seq := 0, entries := [], pan := 0, fill := 0 }

/-- The counters of a new partition (R275, R309). -/
def Counters.reset : Counters := { msgno := 0, copyId := 0, jobId := 0, reqId := 0 }

/-- A FREE slot. Register files, pc, saved signature, stochastic-store counter, mark and ordinal have no reset value in
the spec: DESIGN CHOICE, log 2. -/
def Slot.reset : Slot :=
  { status := .free, cond := .none, regs := Regs.start, pc := 0, loops := [], sig := 0xFFFF, savedSig := 0xFFFF,
    flight := [], landedAt := 0, sys := SlotSys.reset, trap := TrapRegs.reset, wd := 0, stoch := 0, log := SlotLog.reset, pub := 0, pubBad := false,
    mark := 0, replays := [], ordinal := 0, counters := Counters.reset, spilled := [], works := [], charge := none, charged := [],
    task := none, snap := none, bar := .away, redo := none, quar := false, fuseOut := false }

/-- A core after reset: MARGIN auto 1, limit 3, floor and offset 0 (log 3); MWEIGHT 1; the slot last issued is 3 so that
slot 0 comes first (log 2). -/
def Core.reset : Core :=
  { issuing := none, last := 3, view := [], margin := 0x83000000, replays := 0, mweight := 1, timetable := [],
    phase := none, now := 0, consec := 0, consecPc := 0, armed := none, atZero := 0, period := 0, failing := false, probed := false }

/-- A ring slot of a layer that has never been installed (R394). -/
def RingSlot.reset : RingSlot := { state := .free, ver := 0, bound := 0, boundAt := 0, born := false, clearing := [], giveUp := false, stalled := false }

/-- A layer ring of a new partition (R394). -/
def Layer.reset : Layer :=
  { ring := Vector.replicate 4 RingSlot.reset, last := 0, lastAt := 0, marked := false, done := [], doneAt := [],
    install := false, selectors := [], desc := [], built := [] }

/-- An empty selector, which agrees with every mode and d (R325). -/
def Selector.reset : Selector := { taken := false, mode := 0, d := 0, mixed := false, cands := [] }

/-- A barrier group of a new partition (R157). -/
def Bar.reset : Bar := { gen := 0, stage := .gathering, carried := 0, resume := [], armed := [], lostCols := [] }

/-- An engine before its first job. -/
def Engine.reset : Engine := { core := 7, turns := 0 }

/-- A decoder that gives a port the whole HBM from host address 0 on: DESIGN CHOICE, log 79, since what the hosts program
comes from outside. -/
def Decoder.reset : Decoder := { base := 0, size := 0x1BF00000000, ways := 1, gran := 256 }

/-- A port whose link is down, MSI-X off and every vector masked as PCIe resets it (R385, R393, R400; log 16). -/
def Port.reset : Port :=
  { up := false, downAt := none, dropped := 0, dropAddr := 0, mbxcmd := 0, cmdOwned := false, busy := false, result := 0,
    request := List.replicate 256 0, response := List.replicate 256 0, hdm := Decoder.reset, bar0 := 4,
    msixOn := false, msixMask := false,
    msix := (upFrom 0 64).map fun v => (0x10000C + 16 * v, 1), signals := [] }

/-- A launch page (R399). -/
def LaunchPage.reset : LaunchPage :=
  { msg := List.replicate 64 0, busy := false, valid := false, count := 0, watch := 0, record := List.replicate 32 0 }

/-- An unowned device (R389). -/
def HostSide.reset : HostSide :=
  { owned := false, owner := 0, hpend := false, target := 0, handoverAt := 0, ownWrites := [], waiting := [],
    epoch := 0, ports := [], pages := [],
    order := [], readData := [], readPoison := false }

/-- The MC before it has measured anything: what it sets at bring-up (device number, tables, harvest map,
sensors) has a value of the model here, DESIGN CHOICE, log 3; hbmtop is that of the LW2-840S (R434); the measurement
registers hold zero bytes (R402). -/
def Mc.reset : Mc :=
  { device := 0, hbmtop := 0x1BF00000000, blt := [], timeofs := [], harvest := [], moved := [],
    unplaced := [], crossings := [], retired := [], meas := List.replicate 8 0, secver := 0, staged := none, activate := false, fw := none,
    softErrors := 0, poisonLines := 0, vbusRepeats := 0, raises := [], marginLog := [], qrecs := [], qrecsBefore := 0,
    repairing := [], softRepairs := [], hardRepairs := [], hardDone := [], softDone := 0, cap := 0, clock := 1900, lastClock := 0, power := 0,
    temps := List.replicate 24 0, stopped := false }

/-- The machine right after reset: no owner, no partition, no task, nothing in memory. -/
def State.reset : State :=
  { mem := [], poison := [], slots := [], cores := [], parts := [], gangs := [], journal := [], lost := [], tlb := [],
    niKeep := false, copies := [], jobs := [], engines := [], masks := [], msgs := [], flits := [],
    host := HostSide.reset, mc := Mc.reset, time := 0, cur := 0, ir := 0, flow := .seq, fresh := 0, inputs := [] }

/-- Why a step stops. Safe: the tape is the model's own, and stopping proves nothing about the W2. -/
inductive Fault where
  /-- raised by Machine.step when the head of the input tape holds a syllable instead of an event; safe -/
  | notAnEvent
  deriving DecidableEq, Repr

/-- Why an instruction has no meaning. -/
inductive Refusal where
  /-- raised by the dispatcher for an instruction whose meaning is not written; safe -/
  | notModelled (mnemonic : String)
  deriving DecidableEq, Repr

end Sys2Proof.Machine
end

