-- ==== Sys2Proof/Machine/Access.lean ====
section
/-! DEFINITION. Reading and replacing the parts of the state: slots, cores, partitions, and the fields that place a
slot (R27, R28, R61, R75). -/

namespace Sys2Proof.Machine

/-- The slot with key k, which is its writer id (R75). -/
def State.slot (s : State) (k : Nat) : Slot := lookup Slot.reset s.slots k

/-- Replaces slot k. -/
def State.setSlot (s : State) (k : Nat) (x : Slot) : State := { s with slots := insert x s.slots k }

/-- Changes slot k. -/
def State.modSlot (s : State) (k : Nat) (f : Slot → Slot) : State := s.setSlot k (f (s.slot k))

/-- The slot that issues. -/
def State.me (s : State) : Slot := s.slot s.cur

/-- Changes the slot that issues. -/
def State.modMe (s : State) (f : Slot → Slot) : State := s.modSlot s.cur f

/-- The core with key 8 × lcol + c. -/
def State.core (s : State) (k : Nat) : Core := lookup Core.reset s.cores k

/-- Replaces core k. -/
def State.setCore (s : State) (k : Nat) (x : Core) : State := { s with cores := insert x s.cores k }

/-- Changes core k. -/
def State.modCore (s : State) (k : Nat) (f : Core → Core) : State := s.setCore k (f (s.core k))

/-- The core of slot k. -/
def coreOf (k : Nat) : Nat := k / 4

/-- The number of slot k on its core. -/
def slotNo (k : Nat) : Nat := k % 4

/-- The logical column of slot k. -/
def lcolOf (k : Nat) : Nat := k / 32

/-- The number within its block of the core of slot k. -/
def coreNo (k : Nat) : Nat := k / 4 % 8

/-- The logical cluster 24 × Y + X of a logical column (R61). -/
def clusterOf (lcol : Nat) : Nat := lcol / 24

/-- Partition n, when it exists. -/
def State.part? (s : State) (n : Nat) : Option Part := (s.parts.find? fun e => e.1 == n).map (·.2)

/-- Replaces partition n. -/
def State.setPart (s : State) (n : Nat) (x : Part) : State := { s with parts := insert x s.parts n }

/-- Changes partition n where it exists. -/
def State.modPart (s : State) (n : Nat) (f : Part → Part) : State :=
  match s.part? n with
  | some x => s.setPart n (f x)
  | none => s

/-- A logical cluster lies in the partition's rectangle (R29). -/
def Part.hasCluster (p : Part) (cl : Nat) : Bool :=
  p.px ≤ cl % 24 && cl % 24 < p.px + p.w && p.py ≤ cl / 24 && cl / 24 < p.py + p.h

/-- A logical column lies in the partition (R61). -/
def Part.hasCol (p : Part) (lcol : Nat) : Bool := lcol < 20160 && p.hasCluster (clusterOf lcol)

/-- The logical columns of a partition, ascending (R417). -/
def Part.cols (p : Part) : List Nat :=
  (upFrom p.py p.h).flatMap fun y => (upFrom p.px p.w).flatMap fun x => upFrom ((y * 24 + x) * 24) 24

/-- Number of the partition that holds a logical column, and the partition (R29). -/
def State.partAt (s : State) (lcol : Nat) : Option (Nat × Part) := s.parts.find? fun e => e.2.hasCol lcol

/-- Task group id of a slot (R27). -/
def Slot.tgid (t : Slot) : Nat := fld 48 16 t.sys.coord

/-- Partition number of a slot's task (R27). -/
def Slot.partNo (t : Slot) : Nat := fld 44 4 t.sys.coord

/-- Barrier group of a slot's task (R28). -/
def Slot.bgrp (t : Slot) : Nat := fld 32 4 t.sys.tgext

/-- A service task (R28). -/
def Slot.svc (t : Slot) : Bool := flag 28 t.sys.tgext

/-- Priority of a slot's task (R28). -/
def Slot.prio (t : Slot) : Nat := fld 25 3 t.sys.tgext

/-- The slot runs a handler (R330, R335). -/
def Slot.sup (t : Slot) : Bool := flag 0 t.trap.status

/-- The barrier group a slot's writes are journalled under: its own, or the one a service slot is charged to
(R163, R165). -/
def Slot.group (t : Slot) : Option Nat := if t.svc then t.charge else some t.bgrp

/-- Number of the partition in whose rectangle a slot lies; 16, which no partition has, outside all of them (R29). -/
def State.partNoOf (s : State) (k : Nat) : Nat := ((s.partAt (lcolOf k)).map (·.1)).getD 16

/-- Number of the issuing slot's partition. -/
def State.myPart (s : State) : Nat := s.partNoOf s.cur

/-- The core the issuing slot lies on. -/
def State.myCore (s : State) : Core := s.core (coreOf s.cur)

/-- Changes the core the issuing slot lies on. -/
def State.modMyCore (s : State) (f : Core → Core) : State := s.modCore (coreOf s.cur) f

/-- The gang that holds a core, when one stands (R47). -/
def State.gangOf (s : State) (core : Nat) : Option Gang := s.gangs.find? fun g => g.members.any fun k => coreOf k == core

/-- The slot whose registers decide control for the issuing slot: the leader of its gang, or itself (R48). -/
def State.leader (s : State) : Nat :=
  match s.gangOf (coreOf s.cur) with
  | some g => if g.members.contains s.cur then g.members.headD s.cur else s.cur
  | none => s.cur

/-- The issuing core is in a communication phase as this slot's (R166). -/
def State.inPhase (s : State) : Bool :=
  match s.myCore.phase with
  | some p => p.slot == s.cur
  | none => false

/-- Physical cluster 24 × y + x of a logical cluster: the Y-th cluster of its column with a good crossing and at most
one bad block (R34, R442), unless a quarantine has moved it. -/
def Mc.usable (m : Mc) (phys : Nat) : Bool :=
  let w := lookup 0 m.harvest phys
  fld 25 2 w != 3 && ((upFrom 0 25).filter fun b => flag b w).length ≤ 1

/-- The first n physical rows from y on in column x that hold usable clusters, as far as row 35. -/
def Mc.rowsUsable (m : Mc) (x : Nat) : List Nat := (upFrom 0 36).filter fun y => m.usable (24 * y + x)

/-- Physical cluster and block of a logical column (R19, R34). A column whose physical column has too few usable clusters
left has no place; the row and block of its own numbers stand for one where a route or a time is asked for, DESIGN CHOICE
(log 101). -/
def State.place (s : State) (lcol : Nat) : Nat × Nat :=
  match (s.mc.moved.find? fun e => e.1 == lcol) with
  | some e => (e.2 / 25, e.2 % 25)
  | none =>
    let cl := clusterOf lcol
    let x := cl % 24
    let y := ((s.mc.rowsUsable x)[cl / 24]?).getD (cl / 24)
    let good := (upFrom 0 25).filter fun b => !flag b (lookup 0 s.mc.harvest (24 * y + x))
    (24 * y + x, (good[lcol % 24]?).getD (lcol % 24))

/-- The district of a physical cluster (R171). -/
def districtOf (phys : Nat) : Nat := 4 * (phys / 24 / 6) + phys % 24 / 6

/-- TIMEOFS of a district as a signed count (R172). -/
def State.ofsOf (s : State) (district : Nat) : Int := sextNat 16 (lookup 0 s.mc.timeofs district).toNat

/-- The district counter of a core, which TIME reads (R336): the core's wafer time plus its district's offset. -/
def State.timeOf (s : State) (core : Nat) : Word :=
  BitVec.ofInt 64 (((s.core core).now : Int) + s.ofsOf (districtOf (s.place (core / 8)).1))

/-- Draws a free value: the number to apply an opaque constant to, and the state in which it is used up. -/
def State.draw (s : State) : Nat × State := (s.fresh, { s with fresh := s.fresh + 1 })

end Sys2Proof.Machine
end

