-- ==== Sys2Proof/Machine/Address.lean ====
section
/-! DEFINITION. The address layout (R53 to R63), the keys of homes and home banks (R71), and the protection regions
(R65). -/

namespace Sys2Proof.Machine

/-! ## Homes -/

/-- Home key of scratchpad byte o of a core (R56, R62). -/
def spadKey (core o : Nat) : Nat := 2 ^ 41 + core / 8 * 2 ^ 26 + 0x2000000 + core % 8 * 0x100000 + o % 0x20000

/-- Home key of byte o of a column's memory (R62). -/
def colKey (lcol o : Nat) : Nat := 2 ^ 41 + lcol * 2 ^ 26 + o

/-- Home key of byte o of a block's accumulator store, laid out as its image is: cell n of row r at 1,024 r + 4 n
(R311, R417). -/
def accKey (lcol o : Nat) : Nat := 2 ^ 42 + lcol * 2 ^ 18 + o % 2 ^ 18

/-- What a home key names. -/
inductive Home where
  | hbm (pa : Nat)
  | col (lcol o : Nat)
  | spad (core o : Nat)
  | acc (lcol o : Nat)
  deriving DecidableEq, Repr

/-- The home a key names. -/
def homeOf (k : Nat) : Home :=
  if k < 2 ^ 41 then .hbm k
  else if k < 2 ^ 42 then
    let x := k - 2 ^ 41
    let o := x % 2 ^ 26
    if o < 0x2000000 then .col (x / 2 ^ 26) o
    else .spad (x / 2 ^ 26 * 8 + (o - 0x2000000) / 0x100000) (o % 0x20000)
  else .acc ((k - 2 ^ 42) / 2 ^ 18) (k % 2 ^ 18)

/-- The HBM channel of an address or a physical byte (R60). -/
def channelOf (a : Nat) : Nat := a / 2 ^ 16 % 2 ^ 25 % 768

/-- The home bank of a key: a channel, one of a column's sixteen banks, a whole scratchpad, a block's accumulator store
(R71). -/
def bankOf (k : Nat) : Nat :=
  match homeOf k with
  | .hbm pa => channelOf pa
  | .col lcol o => 2 ^ 12 + lcol * 64 + o / 64 % 16
  | .spad core _ => 2 ^ 12 + core / 8 * 64 + 16 + core % 8
  | .acc lcol _ => 2 ^ 12 + lcol * 64 + 24

/-- The logical column on which a home lies, when it lies on the wafer. -/
def homeCol (k : Nat) : Option Nat :=
  match homeOf k with
  | .hbm _ => none
  | .col lcol _ => some lcol
  | .spad core _ => some (core / 8)
  | .acc lcol _ => some lcol

/-! ## Virtual addresses -/

/-- The device field (R53). -/
def devField (va : Word) : Nat := fld 42 22 va

/-- The region bit (R53). -/
def region (va : Word) : Bool := flag 41 va

/-- The offset within the region (R53). -/
def offset (va : Word) : Nat := fld 0 41 va

/-- The element address formed from a base and a byte offset: device and region never change (R203, R253). -/
def effAddr (base off : Word) : Word :=
  mergeMask (maskOf 0 41) (base + off) base

/-- On-wafer base address of a column (R337). -/
def colBase (lcol : Nat) : Word := word (2 ^ 41 + lcol * 2 ^ 26)

/-- Where a decoded address leads. -/
inductive Target where
  /-- scratchpad byte o of a core through window w -/
  | spad (core w o : Nat)
  /-- user part of a column's memory -/
  | col (lcol o : Nat)
  /-- HBM space -/
  | hbm
  /-- another device -/
  | device (d : Nat)
  deriving DecidableEq, Repr

/-- A device number stands in a partition's device map (R396). -/
def inDevMap (m : List Word) (d : Nat) : Bool := m.any fun e => fld 0 22 e ≤ d && d < fld 0 22 e + fld 22 22 e

/-- A device field that names this device (R54). -/
def State.isHere (s : State) (d : Nat) : Bool := d == 0 || d == s.mc.device

/-- An address on another device that the offset tables accept (R55, R60, R62). The issuer's partition bounds no column there:
DESIGN CHOICE, log 82, since R61 says of no device which partition's rectangle holds. -/
def farOk (va : Word) : Bool :=
  let o := offset va
  let x := o % 2 ^ 26
  if region va = false then 0x100000 ≤ o
  else o / 2 ^ 26 < 20160 && (x < 0x1800000 || (0x2000000 ≤ x && x < 0x2800000))

/-- The window code an on-wafer scratchpad address carries (R62). -/
def windowCode (va : Word) : Option Nat :=
  let x := offset va % 2 ^ 26
  if region va && 0x2000000 ≤ x then some (x % 0x100000 / 0x20000) else none

/-- Decodes an address as a core of a partition does; none where decoding refuses it, which raises PROT
(R54 to R56, R60 to R62). -/
def State.target (s : State) (part : Part) (core : Nat) (va : Word) : Option Target :=
  let d := devField va
  let o := offset va
  if s.isHere d then
    if region va = false then
      if o < 0x100000 then (if d = 0 then some (.spad core (o / 0x20000) (o % 0x20000)) else none)
      else some .hbm
    else
      let lcol := o / 2 ^ 26
      let x := o % 2 ^ 26
      if part.hasCol lcol then
        if x < 0x1800000 then some (.col lcol x)
        else if 0x2000000 ≤ x ∧ x < 0x2800000 then
          some (.spad (lcol * 8 + (x - 0x2000000) / 0x100000) ((x - 0x2000000) % 0x100000 / 0x20000) (x % 0x20000))
        else none
      else none
  else if inDevMap part.devmap d && farOk va then some (.device d)
  else none

/-- The partition of the issuing slot; an empty one where it has none, in which every on-wafer address is refused. -/
def State.curPart (s : State) : Part :=
  (s.part? s.myPart).getD
    { px := 0, py := 0, w := 0, h := 0, request := [], root := 0, trapvec := 0, bankkey := 0, bankkeyKept := 0,
      ltbase := 0, saveest := 0, devmap := [], tokens := [], groups := [], nextTgid := 1, launches := [], bars := [],
      layers := [], out := none, calm := 0, resumeAt := 0, switchReq := none, slice := none }

/-- Decodes an address for the issuing slot. -/
def State.myTarget (s : State) (va : Word) : Option Target := s.target s.curPart (coreOf s.cur) va

/-- The target is the issuing core's own scratchpad (R63, R72). -/
def State.isLocal (s : State) : Target → Bool
  | .spad core _ _ => core == coreOf s.cur
  | _ => false

/-! ## Protection regions -/

/-- A region covers the 64-byte granule g (R65). -/
def covers (r : Word) (g : Nat) : Bool := flag 0 r && fld 10 11 r ≤ g && g ≤ fld 21 11 r

/-- A slot's regions grant bit b over granule g: b is 3 for rd, 4 wr, 5 rrd, 6 rwr (R65). -/
def Slot.grants (t : Slot) (b g : Nat) : Bool := t.sys.prgn.toList.any fun r => covers r g && flag b r

/-- The granules of n bytes from scratchpad offset o. -/
def granules (o n : Nat) : List Nat := upFrom (o / 64) ((o + n - 1) / 64 + 1 - o / 64)

/-- Every one of the listed bits is granted over each of n bytes from o. -/
def Slot.permits (t : Slot) (bits : List Nat) (o n : Nat) : Bool :=
  (granules o n).all fun g => bits.all fun b => t.grants b (g % 2048)

/-- The regions of the slots of a core grant the listed bits to others over n bytes from o (R65). -/
def State.permitsOthers (s : State) (core : Nat) (bits : List Nat) (o n : Nat) : Bool :=
  (granules o n).all fun g => bits.all fun b => (upFrom (core * 4) 4).any fun k => (s.slot k).grants b (g % 2048)

/-- What an access does, for regions and pages (R65, R408). -/
inductive Kind where
  | load
  | store
  | atomic
  | fetch
  | query
  | hint
  deriving DecidableEq, Repr

/-- Region bits a local access needs (R65). -/
def Kind.localBits : Kind → List Nat
  | .load | .hint => [3]
  | .store | .query => [4]
  | .atomic => [3, 4]
  | .fetch => []

/-- Region bits an access of another core needs (R65). -/
def Kind.remoteBits : Kind → List Nat
  | .load | .hint => [5]
  | .store | .query => [6]
  | .atomic => [5, 6]
  | .fetch => []

end Sys2Proof.Machine
end

