-- ==== Sys2Proof/Machine/Trans.lean ====
section
/-! DEFINITION. Page tables and the walk (R404 to R412). A walk reads entries at their homes; an NI that keeps leaves
answers from them (R409). -/

namespace Sys2Proof.Machine

/-- n bytes at consecutive home keys. -/
def Memory.bytes (m : Memory) (k n : Nat) : List Byte := (upFrom k n).map fun i => m.read i

/-- The little-endian number of n bytes at a home key (R3). -/
def Memory.num (m : Memory) (k n : Nat) : Nat := leNat (m.bytes k n)

/-- Writes bytes at consecutive home keys. -/
def Memory.writeAll : Memory → Nat → List Byte → Memory
  | m, _, [] => m
  | m, k, b :: bs => Memory.writeAll (m.write b k) (k + 1) bs

/-- A page-table entry's bits (R406). -/
def pteFrame (e : Word) : Nat := fld 20 40 e
def pteRnd (e : Word) : Nat := fld 16 2 e
def pteFmt (e : Word) : Nat := fld 12 4 e
def pteTP (e : Word) : Bool := flag 10 e
def pteX (e : Word) : Bool := flag 9 e
def pteW (e : Word) : Bool := flag 8 e
def pteL (e : Word) : Bool := flag 6 e
def pteD (e : Word) : Bool := flag 4 e
def pteMig (e : Word) : Bool := flag 2 e
def pteRes (e : Word) : Bool := flag 1 e
def pteV (e : Word) : Bool := flag 0 e

/-- How a walk ends (R408). -/
inductive Walk where
  /-- home key of the byte, the leaf, its own key, the level it stood at, and the keys of the entries used before it -/
  | ok (key : Nat) (leaf : Word) (leafKey level : Nat) (nodes : List Nat)
  /-- PAGE at the level, and whether a table node failed -/
  | page (level : Nat) (node : Bool)
  /-- PROT by W or X -/
  | prot
  /-- stalled on MIG (R412) -/
  | mig
  deriving DecidableEq, Repr

/-- First byte past what frames may name: the reserve ends at hbmtop (R407, R434). -/
def State.frameTop (s : State) : Nat := s.mc.hbmtop - 0xFD8000000

/-- Home key of physical address pa in a walk by the NI of a column, or of a channel; none where R407 refuses it. -/
def State.physKey (s : State) (ni : Option Nat) (pa : Nat) : Option Nat :=
  if pa / 2 ^ 50 % 2 = 0 then (if pa < s.frameTop then some pa else none)
  else
    match ni with
    | some lcol => if pa - 2 ^ 50 < 0x1800000 then some (colKey lcol (pa - 2 ^ 50)) else none
    | none => none

/-- Bits of the page offset at a level (R405). -/
def pageBits (level : Nat) : Nat := 8 + 8 * level

/-- Index of an address at a level (R405). -/
def walkIndex (level : Nat) (va : Word) : Nat := if level = 3 then fld 32 10 va else fld (pageBits level) 8 va

/-- The entry at a home key. -/
def State.pte (s : State) (key : Nat) : Word := word (s.mem.num key 8)

/-- A soft repair holds the traffic to a channel (R13, R444). -/
def State.channelHeld (s : State) (c : Nat) : Bool := s.mc.repairing.any fun x => x.1 == c && decide (s.time < x.2)

/-- The NI at which an access waits, as niOf numbers it. -/
def HostAccess.ni (x : HostAccess) : Nat :=
  match x.asker with
  | .device _ => if region (word x.addr) then 768 + offset (word x.addr) / 2 ^ 26 else channelOf x.key
  | _ => channelOf x.key

/-- The access is the first of those that wait at its NI (R444). -/
def State.isFirst (s : State) (x : HostAccess) : Bool := (s.host.waiting.find? fun y => y.ni == x.ni) == some x

/-- An access joins those that wait, or leaves them. -/
def State.wait (s : State) (x : HostAccess) : State :=
  { s with host := { s.host with waiting := s.host.waiting ++ [x] } }
def State.unwait (s : State) (x : HostAccess) : State :=
  { s with host := { s.host with waiting := s.host.waiting.erase x } }

/-- Slot k waits at an NI. -/
def State.queued (s : State) (k : Nat) : Bool := s.host.waiting.any fun x => x.asker == .slot k

/-- Slot k waits at no NI any more. -/
def State.unqueue (s : State) (k : Nat) : State :=
  if s.queued k then { s with host := { s.host with waiting := s.host.waiting.filter fun x => x.asker != .slot k } } else s

/-- An access of slot k to an HBM address waits behind those that wait at its channel already, or behind a repair
(R444). -/
def State.behind (s : State) (k : Nat) (va : Word) : Bool :=
  !region va && !s.queued k && s.host.waiting.any fun x => x.ni == channelOf (offset va)

/-- A slot that has come to a channel under repair takes its place among the accesses that wait there (R444). -/
def State.enqueue (s : State) (k : Nat) (va : Word) : State :=
  if !region va && !s.queued k &&
      (s.channelHeld (channelOf (offset va)) || s.host.waiting.any fun x => x.ni == channelOf (offset va)) then
    s.wait { port := 0, addr := va.toNat, key := offset va, len := 0, bytes := none, asker := .slot k }
  else s

/-- Slot k is not kept waiting by an access that came to its NI before it (R444). -/
def State.slotTurn (s : State) (k : Nat) : Bool :=
  match s.host.waiting.find? fun x => x.asker == .slot k with
  | some x => s.isFirst x
  | none => true

/-- A home key lies in a channel that is held. -/
def State.keyHeld (s : State) (k : Nat) : Bool :=
  match homeOf k with
  | .hbm pa => s.channelHeld (channelOf pa)
  | _ => false

/-- What a leaf met at a level gives an access (R407, R408): ni is the walking column, or none for a channel. -/
def State.leafAt (s : State) (ni : Option Nat) (va : Word) (kind : Kind) (e : Word) (key level : Nat)
    (nodes : List Nat) : Walk :=
  let pa := pteFrame e * 0x800
  if region va && level != 1 then .page level false
  else if pteRes e = false then .page level false
  else if pteMig e then .mig
  else if pa % 2 ^ pageBits level ≠ 0 then .page level false
  else
    let inCol := pa / 2 ^ 50 % 2 == 1
    if inCol != region va then .page level false
    else if inCol = false ∧ channelOf (pa + va.toNat % 2 ^ pageBits level) ≠ channelOf (offset va) then .page level false
    else
      match s.physKey ni (pa + va.toNat % 2 ^ pageBits level) with
      | none => .page level false
      | some k =>
        if (kind = .store ∨ kind = .atomic ∨ kind = .query) ∧ pteW e = false then .prot
        else if kind = .fetch ∧ pteX e = false then .prot
        else .ok k e key level nodes

/-- The walk from a node at a level downward (R408). An entry in a channel under repair is waited for as one behind MIG is
(R444, log 80). -/
def State.walkFrom (s : State) (ni : Option Nat) (va : Word) (kind : Kind) : Nat → Nat → List Nat → Walk
  | 0, _, _ => .page 0 true
  | level + 1, node, used =>
    let key := node + 8 * walkIndex (level + 1) va
    let e := s.pte key
    if kind ≠ .hint ∧ s.keyHeld key then .mig
    else if pteV e = false then .page (level + 1) false
    else if pteL e then s.leafAt ni va kind e key (level + 1) used
    else if level = 0 ∨ pteTP e = false ∨ pteRes e = false then .page (level + 1) true
    else if pteMig e then .mig
    else
      match s.physKey ni (pteFrame e * 0x800) with
      | none => .page (level + 1) true
      | some k => s.walkFrom ni va kind level k (used ++ [key])

/-- The NI of an address: a channel number, or 768 plus a logical column (R408). -/
def niOf (va : Word) : Nat := if region va then 768 + offset va / 2 ^ 26 else channelOf (offset va)

/-- The walking column of an address, none for HBM space. -/
def niCol (va : Word) : Option Nat := if region va then some (offset va / 2 ^ 26) else none

/-- Walks an address of a partition through its tree (R404, R408). -/
def State.walk (s : State) (part : Part) (va : Word) (kind : Kind) : Walk :=
  s.walkFrom (niCol va) va kind 3 part.root []

/-- A kept leaf covers an address. -/
def CachedLeaf.hits (c : CachedLeaf) (pn : Nat) (va : Word) : Bool :=
  c.part == pn && c.ni == niOf va && c.page == fld c.size (42 - c.size) va

/-- The leaf an NI keeps for an address (R409). -/
def State.cached (s : State) (pn : Nat) (va : Word) : Option CachedLeaf :=
  if s.niKeep then s.tlb.find? fun c => c.hits pn va else none

/-- Translates an address: from a kept leaf, which gives what the walk gave when it was kept, unless it is a store that
finds D clear and the leaf changed (R409, R410); else by a walk. An access to a channel under repair waits (R444); what only
compares addresses, or prefetches, does not. -/
def State.translate (s : State) (pn : Nat) (part : Part) (va : Word) (kind : Kind) : Walk :=
  if kind ≠ .hint ∧ region va = false ∧ s.channelHeld (channelOf (offset va)) then .mig
  else match s.cached pn va with
  | some c =>
    if (kind = .store ∨ kind = .atomic) ∧ pteD c.entry = false ∧
        (s.pte c.home ||| 0x18) ≠ (c.entry ||| 0x18) then s.walk part va kind
    else s.leafAt (niCol va) va kind c.entry c.home ((c.size - 8) / 8) []
  | none => s.walk part va kind

/-- ORs a bit mask into byte 0 of an entry at its home; never journalled (R410). -/
def State.orPte (s : State) (key : Nat) (m : Byte) : State :=
  { s with mem := s.mem.write (s.mem.read key ||| m) key }

/-- What an access that performs through a translation leaves: A in the entries used, D in the leaf of a store or an
atomic, and the leaf in the NI that keeps leaves (R409, R410). -/
def State.usePage (s : State) (pn : Nat) (va : Word) (kind : Kind) : Walk → State
  | .ok _ leaf leafKey level nodes =>
    let dirty := kind == .store || kind == .atomic
    match s.cached pn va with
    | some c =>
      if c.entry = leaf ∧ c.home = leafKey ∧ nodes = [] then
        if dirty && !pteD leaf then
          { s.orPte leafKey 0x18 with
            tlb := updateIf (fun x => x == c) (fun x => { x with entry := x.entry ||| 0x18 }) s.tlb }
        else s
      else
        { (nodes.foldl (fun s k => s.orPte k 0x08) s).orPte leafKey (if dirty then 0x18 else 0x08) with
          tlb := updateIf (fun x => x == c) (fun x =>
            { x with page := fld (pageBits level) (42 - pageBits level) va, size := pageBits level,
                     entry := leaf ||| 0x08, home := leafKey }) s.tlb }
    | none =>
      let t := (nodes.foldl (fun s k => s.orPte k 0x08) s).orPte leafKey (if dirty then 0x18 else 0x08)
      if s.niKeep then
        { t with tlb := { part := pn, ni := niOf va, page := fld (pageBits level) (42 - pageBits level) va,
                          size := pageBits level, entry := leaf ||| 0x08, home := leafKey } :: s.tlb }
      else t
  | _ => s

end Sys2Proof.Machine
end

