-- ==== Sys2Proof/Machine/HomeOps.lean ====
section
/-! DEFINITION. Writes and reads at home: journals (R163, R434, R435), poison (R432), lost columns (R433), and the
rollback write-back (R436). -/

namespace Sys2Proof.Machine

/-- The member slots of a barrier group: its started tasks that are not service tasks (R50). -/
def State.members (s : State) (pn g : Nat) : List Nat :=
  (s.slots.filter fun e => e.2.status != .free && e.2.partNo == pn && e.2.bgrp == g && !e.2.svc).map (·.1)

/-- Sets a bit of a slot's CHKINT (R158, R159). -/
def State.setChk (s : State) (k b : Nat) : State :=
  s.modSlot k fun t => { t with sys := { t.sys with chkint := setFlag b true t.sys.chkint } }

/-- Sets a CHKINT bit in each of the slots. -/
def State.setChks (s : State) (ks : List Nat) (b : Nat) : State := ks.foldl (fun s k => s.setChk k b) s

/-- The 64-byte line of a key. -/
def lineOf (k : Nat) : Nat := k / 64

/-- The line is marked poison (R432). -/
def State.isPoison (s : State) (k : Nat) : Bool := s.poison.contains (lineOf k)

/-- The journal of a line: its store, by bank for HBM channels, by place otherwise (R163, R434). -/
def journalOf (line : Nat) : Nat :=
  match homeOf (line * 64) with
  | .hbm pa => channelOf pa
  | .col lcol _ => 1000 + lcol * 16
  | .spad core _ => 1000 + core / 8 * 16 + 1 + core % 8
  | .acc lcol _ => 1000 + lcol * 16 + 9

/-- Records a journal holds (R163); accumulator rows have none (R162). -/
def journalCap (line : Nat) : Nat :=
  match homeOf (line * 64) with
  | .hbm _ => 466033
  | .col _ _ => 14563
  | .spad _ _ => 3640
  | .acc _ _ => 0

/-- The line is in an accumulator store, whose writes are not journalled (R162). -/
def inAcc (line : Nat) : Bool :=
  match homeOf (line * 64) with
  | .acc _ _ => true
  | _ => false

/-- Under whose journal a write stands: partition, barrier group, and the task that writes (R163, R161). -/
abbrev Writer := Nat × Nat × Nat

/-- The number of the task in a slot: slot key, and group id above it. -/
def State.taskOf (s : State) (k : Nat) : Nat := k + 2 ^ 20 * (s.slot k).tgid

/-- Adds the bytes of a mask to what a task wrote of a line. -/
def JournalRec.wrote (r : JournalRec) (task mask : Nat) : JournalRec :=
  let old := ((r.writers.find? fun w => w.1 == task).map (·.2)).getD 0
  { r with writers := (task, Nat.lor old mask) :: r.writers.filter fun w => w.1 != task }

/-- Appends the journal record of a group's first write to a line in the superstep; with the journal full the write
goes on and nrb is set in the group's members (R163). -/
def State.journalLine (s : State) (who : Writer) (line mask : Nat) : State :=
  let (pn, g, task) := who
  let mine := fun (r : JournalRec) => r.part == pn && r.group == g && r.line == line
  if inAcc line then s
  else if s.journal.any mine then { s with journal := updateIf mine (fun r => r.wrote task mask) s.journal }
  else if (s.journal.filter fun r => journalOf r.line == journalOf line).length < journalCap line then
    { s with journal := s.journal ++
        [{ part := pn, group := g, line := line, bytes := s.mem.bytes (line * 64) 64, poison := s.poison.contains line,
           writers := [(task, mask)] }] }
  else s.setChks (s.members pn g) 16

/-- The bytes of a line that n bytes from a key take, as a mask. -/
def lineMask (line k n : Nat) : Nat :=
  let lo := max k (line * 64) - line * 64
  let hi := min (k + n) (line * 64 + 64) - line * 64
  (2 ^ (hi - lo) - 1) * 2 ^ lo

/-- Journals every line of n bytes from a key under a group. -/
def State.journalLines (s : State) (who : Option Writer) (k n : Nat) : State :=
  match who with
  | none => s
  | some w =>
    (upFrom (lineOf k) (lineOf (k + n - 1) + 1 - lineOf k)).foldl (fun s l => s.journalLine w l (lineMask l k n)) s

/-- The key lies in a lost column's memory (R433), or anywhere in a column that has no place (R437). -/
def State.isLost (s : State) (k : Nat) : Bool :=
  match homeOf k with
  | .col lcol _ => s.lost.contains lcol
  | .spad core _ => s.mc.unplaced.contains (core / 8)
  | .acc lcol _ => s.mc.unplaced.contains lcol
  | .hbm _ => false

/-- A read of the key's line answers with poison: it is marked, or its column is lost (R432, R433). -/
def State.isBad (s : State) (k : Nat) : Bool := s.isPoison k || s.isLost k

/-- Some byte of n from a key lies in a line that answers with poison. -/
def State.anyPoison (s : State) (k n : Nat) : Bool :=
  (upFrom (lineOf k) (lineOf (k + n - 1) + 1 - lineOf k)).any fun l => s.isBad (l * 64)

/-- The byte a read at home gives; what a lost column held is gone, and its bytes are free (R433, log 11). -/
def State.homeByte (s : State) (k : Nat) : Byte :=
  if s.isLost k then Config.freeByte (s.fresh * 2 ^ 64 + k) else s.mem.read k

/-- n bytes read at home. -/
def State.homeBytes (s : State) (k n : Nat) : List Byte := (upFrom k n).map s.homeByte

/-- A write that covers a whole line takes its poison mark away (R432). -/
def State.clearPoison (s : State) (k n : Nat) : State :=
  { s with poison := s.poison.filter fun l => !(k ≤ l * 64 && l * 64 + 64 ≤ k + n) }

/-- Writes bytes at home under a group's journal, or none; a lost column takes nothing. -/
def State.homeWrite (s : State) (who : Option Writer) (k : Nat) (bs : List Byte) : State :=
  if bs = [] ∨ s.isLost k then s
  else
    let s := s.journalLines who k bs.length
    { s with mem := s.mem.writeAll k bs }.clearPoison k bs.length

/-- Writes single bytes at home keys under a group's journal; bytes that together cover a whole line clear its
poison. -/
def State.homeScatter (s : State) (who : Option Writer) (cells : List (Nat × Byte)) : State :=
  let t := cells.foldl (fun s c => s.homeWrite who c.1 [c.2]) s
  { t with poison := t.poison.filter fun l => !((upFrom (l * 64) 64).all fun k => cells.any fun c => c.1 == k) }

/-- Writes a journal record's line back, its poison mark included (R436). -/
def State.writeBack (s : State) (r : JournalRec) : State :=
  { s with mem := s.mem.writeAll (r.line * 64) r.bytes,
           poison := if r.poison then addKey r.line s.poison else s.poison.filter fun l => l != r.line }

/-- Writes back and discards the records of a group (R436). -/
def State.undo (s : State) (pn g : Nat) : State :=
  let mine := s.journal.filter fun r => r.part == pn && r.group == g
  { mine.foldl (fun s r => s.writeBack r) s with
    journal := s.journal.filter fun r => !(r.part == pn && r.group == g) }

/-- Discards the records of a group whose superstep has ended (R155 step 4). -/
def State.forgetJournal (s : State) (pn g : Nat) : State :=
  { s with journal := s.journal.filter fun r => !(r.part == pn && r.group == g) }

/-- Under whose journal the writes of a slot stand. -/
def State.writerOf (s : State) (k : Nat) : Option Writer :=
  (s.slot k).group.map fun g => (s.partNoOf k, g, s.taskOf k)

/-- A task that ends cleanly takes its writes out of a record: none where only it wrote the line; else the bytes that it
alone wrote are recorded as they stand (R161). -/
def State.releaseRec (s : State) (task : Nat) (r : JournalRec) : Option JournalRec :=
  match r.writers.find? fun w => w.1 == task with
  | none => some r
  | some w =>
    let rest := r.writers.filter fun x => x.1 != task
    if rest = [] then none
    else
      let theirs := rest.foldl (fun m x => Nat.lor m x.2) 0
      some { r with writers := rest, bytes := (upFrom 0 64).map fun i =>
        if w.2 / 2 ^ i % 2 = 1 ∧ theirs / 2 ^ i % 2 = 0 then s.mem.read (r.line * 64 + i) else r.bytes.getD i 0 }

/-- The entry was appended after the slot's barrier mark (R96). -/
def Slot.afterMark (t : Slot) (q : Nat) : Bool := q != t.mark && reached q t.mark

/-- The writes of the task in slot k since its group's last barrier leave the journals, and its entries are not
journalled (R161). -/
def State.releaseWrites (s : State) (k : Nat) : State :=
  let free := fun (t : Slot) (e : Entry) => if t.afterMark e.seq then { e with group := none } else e
  let u := s.modSlot k fun t => { t with log := { t.log with entries := t.log.entries.map (free t) } }
  { u with journal := s.journal.filterMap (s.releaseRec (s.taskOf k)) }

/-- A sleeper waits for an answer from a column: a flag word or a page there, or the release cell of a writer
(R75, R82, R159). -/
def Cond.awaits (c : Cond) (lcol : Nat) : Bool :=
  match c with
  | .flagWord key _ => (match homeOf key with
      | .col x _ => x == lcol
      | _ => false)
  | .migration va => region va && offset va / 2 ^ 26 == lcol
  | .published w _ => lcolOf w == lcol
  | _ => false

/-- Every group that depends on a lost column of a partition: one with a member there, an entry to it not yet
crystallised, or a sleeper waiting on it (R159). -/
def State.lostGroups (s : State) (pn lcol : Nat) : List Nat :=
  ((s.slots.filter fun e =>
      e.2.status != .free && e.2.partNo == pn && !e.2.svc &&
        (lcolOf e.1 == lcol || e.2.cond.awaits lcol ||
          e.2.log.entries.any fun x => x.state != .crystallised && x.state != .voided &&
            region x.va && offset x.va / 2 ^ 26 == lcol && offset x.va % 2 ^ 26 < 0x2000000)).map
    fun e => e.2.bgrp).eraseDups

/-- Sets collost in every member of a group that depends on lost columns, and keeps which (R159, R337). -/
def State.loseCols (s : State) (pn g : Nat) (cols : List Nat) : State :=
  (s.setChks (s.members pn g) 3).modPart pn fun p =>
    let b := lookup Bar.reset p.bars g
    { p with bars := insert { b with lostCols := cols.foldl (fun l c => addKey c l) b.lostCols } p.bars g }

/-- Sets collost in every member of the groups that depend on a column (R159). -/
def State.setCollost (s : State) (pn lcol : Nat) : State :=
  (s.lostGroups pn lcol).foldl (fun s g => s.loseCols pn g [lcol]) s

/-- An access to a lost column: collost in the members of the issuer's group (R159, R433). -/
def State.metLost (s : State) (va : Word) : State :=
  match s.me.group with
  | some g => s.loseCols s.me.partNo g [offset va / 2 ^ 26]
  | none => s

end Sys2Proof.Machine
end

