-- ==== Sys2Proof/Machine/LogView.lean ====
section
/-! DEFINITION. Logs, views and releases (R73 to R90): appending, acceptance, crystallisation, raking, view lines and
the bytes a shared load takes. -/

namespace Sys2Proof.Machine

/-! ## Entries -/

/-- Home key of a virtual address for matching, whatever its permissions; none where nothing maps it (R63). -/
def State.peekKey (s : State) (k : Nat) (va : Word) : Option Nat :=
  match s.part? (s.partNoOf k) with
  | none => none
  | some p =>
    match s.target p (coreOf k) va with
    | some (.spad core _ o) => some (spadKey core o)
    | some (.col _ _) | some .hbm =>
      match s.translate (s.partNoOf k) p va .hint with
      | .ok key _ _ _ _ => some key
      | _ => none
    | _ => none

/-- The home bank of a store's byte, which its virtual address decides: translation keeps the channel and the low 16
bits (R60, R71, R407). -/
def vbank (va : Word) : Nat :=
  if region va then
    let lcol := offset va / 2 ^ 26
    let x := offset va % 2 ^ 26
    if x < 0x2000000 then 2 ^ 12 + lcol * 64 + x / 64 % 16
    else 2 ^ 12 + lcol * 64 + 16 + (x - 0x2000000) / 0x100000
  else channelOf (offset va)

/-- The banks an entry's bytes lie in. -/
def Entry.banks (e : Entry) : List Nat := (e.cells.map fun c => vbank c.1).eraseDups

/-- The entry is settled at home: crystallised, or voided. -/
def Entry.settled (e : Entry) : Bool := e.state == .crystallised || e.state == .voided

/-- The entry waits for its home's answer. -/
def Entry.unanswered (e : Entry) : Bool := e.state == .appended || e.state == .sent

/-- The entry stands refused. -/
def Entry.isRefused (e : Entry) : Bool :=
  match e.state with
  | .refused _ => true
  | _ => false

/-- Bytes an entry takes in a pan (R73). -/
def entrySize (big : Bool) : Nat := if big then 80 else 16

/-- The log after room for one more entry of a size is taken: none when all 16 pans are held (R73, R78). -/
def SlotLog.room (l : SlotLog) (size : Nat) : Option SlotLog :=
  let oldest := (l.entries.map (·.pan)).headD l.pan
  let fits := l.fill + size ≤ 4096 && !(l.entries.all (fun e => e.pan != l.pan) && l.fill != 0)
  if fits then some { l with fill := l.fill + size }
  else if l.pan + 1 - oldest < 16 then some { l with pan := l.pan + 1, fill := size }
  else none

/-- A store about to be appended: its bytes, whether it takes a large entry, whether it is a RAW vector store. -/
structure NewEntry where
  cells : List (Word × Byte)
  big : Bool
  raw : Bool
  deriving DecidableEq, Repr

/-- Appends entries with consecutive numbers, all or none (R74, R256). Of one of several entries of a vector store TRAPADDR is
to hold the address of its own first byte, DESIGN CHOICE, since R90 says only the store's address (log 95). -/
def SlotLog.append (group : Option Nat) (ord : Nat) : SlotLog → List NewEntry → Option SlotLog
  | l, [] => some l
  | l, n :: ns =>
    match l.room (entrySize n.big) with
    | none => none
    | some l' =>
      let q := mod44 (l.seq + 1)
      SlotLog.append group ord
        { l' with seq := q,
                  entries := l'.entries ++
                    [{ seq := q, va := (n.cells.map (·.1)).headD 0, cells := n.cells, homes := [], state := .appended,
                       pan := l'.pan, raw := n.raw, bad := false, trapDue := false, forced := false, awaited := [], loose := [],
                       removed := false, pages := [], group := group, ord := ord }] } ns

/-- Changes the entries of a slot's log. -/
def State.modLog (s : State) (k : Nat) (f : List Entry → List Entry) : State :=
  s.modSlot k fun t => { t with log := { t.log with entries := f t.log.entries } }

/-- Changes one entry of a slot's log. -/
def State.modEntry (s : State) (k seq : Nat) (f : Entry → Entry) : State :=
  s.modLog k (updateIf (fun e => e.seq == seq) f)

/-- How a page answers one byte of a store (R90, R269). -/
def State.answerPage (s : State) (k : Nat) (p : Part) (raw : Bool) (va : Word) : Option (Except Nat Nat) :=
  match s.translate (s.partNoOf k) p va .store with
  | .ok key leaf _ _ _ => if raw && pteFmt leaf != 0 && pteFmt leaf < 8 then some (.error 3) else some (.ok key)
  | .page _ _ => some (.error 1)
  | .prot => some (.error 2)
  | .mig => none

/-- How the home answers one byte of a store (R90, R269): its key, a reason, or none while it stalls on MIG. A lost
column, and one that has no place, takes it without effect (R433, R437). -/
def State.answerByte (s : State) (k : Nat) (raw : Bool) (va : Word) : Option (Except Nat Nat) :=
  match s.part? (s.partNoOf k) with
  | none => some (.error 2)
  | some p =>
    match s.target p (coreOf k) va with
    | some (.spad core _ o) =>
      if s.mc.unplaced.contains (core / 8) || s.permitsOthers core [6] o 1 then some (.ok (spadKey core o))
      else some (.error 2)
    | some (.col lcol o) =>
      if s.lost.contains lcol then some (.ok (colKey lcol o)) else s.answerPage k p raw va
    | some .hbm => s.answerPage k p raw va
    | _ => some (.error 2)

/-- Answers every byte of an entry: the keys, the first reason, or none while one stalls. -/
def State.answerAll (s : State) (k : Nat) (raw : Bool) : List (Word × Byte) → Option (Except Nat (List Nat))
  | [] => some (.ok [])
  | c :: cs =>
    match s.answerByte k raw c.1 with
    | none => none
    | some (.error r) => some (.error r)
    | some (.ok key) =>
      match s.answerAll k raw cs with
      | none => none
      | some (.error r) => some (.error r)
      | some (.ok keys) => some (.ok (key :: keys))

/-- The pages a store's bytes perform through take their A and D bits (R410). -/
def State.dirtyPages (s : State) (k : Nat) (cells : List (Word × Byte)) : State :=
  match s.part? (s.partNoOf k) with
  | none => s
  | some p =>
    (cells.map fun c => c.1 &&& ~~~ (0xFFFF : Word)).eraseDups.foldl (fun s va =>
      match s.target p (coreOf k) va with
      | some (.col _ _) | some .hbm => s.usePage (s.partNoOf k) va .store (s.translate (s.partNoOf k) p va .store)
      | _ => s) s

/-! ## View lines (R80, R81) -/

/-- A view line belongs to a slot of its core and a home line. -/
def ViewLine.is (l : ViewLine) (slot line : Nat) : Bool := l.slot == slot && l.line == line

/-- Puts bytes into a mask of bytes by offset; the newer byte stays (R89). -/
def putBytes (old new : List (Nat × Byte)) : List (Nat × Byte) :=
  new.foldl (fun m c => insert c.2 m c.1) old

/-- Records in a line the highest sequence that a writer contributed (R80). -/
def putWriter (ws : List (Nat × Nat)) (w q : Nat) : List (Nat × Nat) :=
  let old := ((ws.find? fun x => x.1 == w).map (·.2)).getD q
  (w, if reached q old then q else old) :: ws.filter fun x => x.1 != w

/-- An entry's bytes in one home line, and the virtual line through which the first of them came (R80, R266). -/
structure LineBytes where
  line : Nat
  vline : Word
  bytes : List (Nat × Byte)
  deriving DecidableEq, Repr

/-- Groups an entry's bytes, each with its home key and virtual address, by home line. -/
def byLine (cells : List (Nat × Word × Byte)) : List LineBytes :=
  ((cells.map fun c => lineOf c.1).eraseDups).map fun l =>
    let mine := cells.filter fun c => lineOf c.1 == l
    { line := l, vline := (mine.map fun c => c.2.1).headD 0 &&& ~~~ (63 : Word),
      bytes := mine.map fun c => (c.1 % 64, c.2.2) }

/-- Bytes at home keys reach slot k's view otherwise, so no entry of its log that could not tell its home adds them any
more. -/
def State.unloose (s : State) (k : Nat) (keys : List Nat) : State :=
  if (s.slot k).log.entries.any fun e => e.loose.any keys.contains then
    s.modLog k fun es => es.map fun e => { e with loose := e.loose.filter fun x => !keys.contains x }
  else s

/-- Home keys of a line's bytes. -/
def LineBytes.keys (l : LineBytes) : List Nat := l.bytes.map fun c => l.line * 64 + c.1

/-- An accepted entry's bytes go into a view line of its slot that stood when the store issued; where the line has four
other writers, it gives the bytes up and a load takes them from the home (R80, R81; log 84). -/
def ViewLine.late (x : ViewLine) (k : Nat) (l : LineBytes) (e : Entry) : ViewLine :=
  if x.writers.length = 4 ∧ (x.writers.all fun w => w.1 != k) then
    { x with bytes := x.bytes.filter fun c => !(l.bytes.map (·.1)).contains c.1 }
  else { x with bytes := putBytes x.bytes l.bytes, writers := putWriter x.writers k e.seq, bad := x.bad || e.bad }

/-- The home of an entry is known at last: its bytes go into the lines of the slot's view in which they belonged when its
store issued (R81; log 84). -/
def State.forwardLate (s : State) (k seq : Nat) (keys : List Nat) : State :=
  match (s.slot k).log.entries.find? fun e => e.seq == seq with
  | some e =>
    if e.loose = [] then s
    else
      (byLine ((keys.zip e.cells).filter fun c => e.loose.contains c.1)).foldl (fun s l =>
        (s.unloose k l.keys).modCore (coreOf k) fun c =>
          { c with view := updateIf (fun x => x.is (slotNo k) l.line) (fun x => x.late k l e) c.view })
        (s.modEntry k seq fun e => { e with loose := [] })
  | none => s

/-! ## Crystallisation and raking -/

/-- An earlier entry of the slot to one of the same banks is not settled (R77). -/
def blocked (es : List Entry) (e : Entry) : Bool :=
  (es.takeWhile fun x => x.seq != e.seq).any fun x => !x.settled && x.banks.any fun b => e.banks.contains b

/-- Nothing is written at a home for now: a scratchpad of a partition that is out, until its restore (R421), or a channel
under repair (R444). -/
def State.heldHome (s : State) (key : Nat) : Bool :=
  match homeOf key with
  | .spad core _ => ((s.partAt (core / 8)).map (·.2.out.isSome)).getD false
  | .hbm pa => s.channelHeld (channelOf pa)
  | _ => false

/-- Under whose journal an entry of slot k is written: the task's that stored it, or, before the slot's barrier mark, an
earlier one's (R163, R165). -/
def State.entryWriter (s : State) (k : Nat) (e : Entry) : Option Writer :=
  e.group.map fun g => (s.partNoOf k, g, if (s.slot k).afterMark e.seq then s.taskOf k else k)

/-- Marks the lines of home keys poison (R432). -/
def State.markLines (s : State) (keys : List Nat) : State :=
  { s with poison := keys.foldl (fun l k => addKey (lineOf k) l) s.poison }

/-- A count that saturates at 64 bits (R439). -/
def count64 (n : Nat) : Nat := satInc 64 n

/-- Lines marked poison, those that are so for the first time counted (R432, R439). -/
def State.poisoned (s : State) (keys : List Nat) : State :=
  let t := s.markLines keys
  { t with mc := { t.mc with poisonLines :=
      (((keys.map lineOf).eraseDups).filter fun l => !s.poison.contains l).foldl (fun n _ => count64 n) t.mc.poisonLines } }

/-- Writes one accepted entry at home, through the journal, when its banks' order lets it; an entry whose pan has met an
error leaves its lines poisoned (R76, R77, R432). -/
def State.crystEntry (s : State) (k seq : Nat) : State :=
  match (s.slot k).log.entries.find? fun e => e.seq == seq with
  | some e =>
    if e.state = .accepted ∧ blocked (s.slot k).log.entries e = false ∧ e.homes.any s.heldHome = false then
      (let t := (if e.bad then s.poisoned e.homes else s).homeScatter (s.entryWriter k e) (e.homes.zip (e.cells.map (·.2)))
       (if e.bad then t.markLines e.homes else t).modEntry k seq fun e => { e with state := .crystallised })
    else s
  | none => s

/-- Rakes the oldest pans whose entries are all settled (R77); fuel bounds the pans. -/
def rakePans : Nat → List Entry → List Entry
  | 0, es => es
  | n + 1, es =>
    match es with
    | [] => []
    | e :: _ =>
      if (es.filter fun x => x.pan == e.pan).all Entry.settled then rakePans n (es.filter fun x => x.pan != e.pan) else es

/-- Rakes a slot's log. -/
def State.rake (s : State) (k : Nat) : State := s.modLog k (rakePans 17)

/-- The entries of a slot that are forced crystallise, in order, as far as they have been accepted (R77, R79). -/
def State.settleForced (s : State) (k : Nat) : State :=
  let es := (s.slot k).log.entries.filter fun e => e.forced && !e.settled
  if es = [] then s else (es.foldl (fun s e => s.crystEntry k e.seq) s).rake k

/-- The page under whose translation a store's byte is accepted, as base and bytes in {region, offset} (R413). -/
def State.pageUnder (s : State) (k : Nat) (p : Part) (va : Word) : Option (Nat × Nat) :=
  match s.translate (s.partNoOf k) p va .store with
  | .ok _ _ _ level _ => some (fld (pageBits level) (42 - pageBits level) va * 2 ^ pageBits level, 2 ^ pageBits level)
  | _ => none

/-- The pages under whose translations a store's bytes are accepted. -/
def State.pagesUnder (s : State) (k : Nat) (cells : List (Word × Byte)) : List (Nat × Nat) :=
  match s.part? (s.partNoOf k) with
  | none => []
  | some p => ((cells.map fun c => c.1 &&& ~~~ (0xFFFF : Word)).eraseDups.filter fun va =>
      match s.target p (coreOf k) va with
      | some (.col _ _) | some .hbm => true
      | _ => false).filterMap (s.pageUnder k p)

/-- The home NI accepts or refuses one entry that waits for it; it stays SENT behind a migrating page, and a forced entry
crystallises once it is accepted (R76, R79, R90, R412). -/
def State.acceptEntry (s : State) (k : Nat) (e : Entry) : State :=
  if e.unanswered then
    match s.answerAll k e.raw e.cells with
    | none => s.modEntry k e.seq fun e => { e with state := .sent }
    | some (.error r) => s.modEntry k e.seq fun e => { e with state := .refused r, trapDue := true }
    | some (.ok keys) =>
      let pages := s.pagesUnder k e.cells
      let s := (s.dirtyPages k e.cells).modEntry k e.seq fun e => { e with state := .accepted, homes := keys, pages := pages }
      let s := s.forwardLate k e.seq keys
      let gone := (keys.filter s.isLost).filterMap homeCol
      let s := match e.group with
        | some g => if gone = [] then s else s.loseCols (s.partNoOf k) g gone
        | none => s
      if e.forced then s.settleForced k else s
  else s

/-- Drives to their answers the entries of a slot that a test names. -/
def State.acceptWhere (s : State) (k : Nat) (p : Entry → Bool) : State :=
  ((s.slot k).log.entries.filter p).foldl (fun s e => s.acceptEntry k e) s

/-- The entries a test names, with those that stand before one of them at one of its banks, before one of those, and so
on (R77). -/
def needed (p : Entry → Bool) : List Entry → List Entry
  | [] => []
  | e :: es =>
    let r := needed p es
    if p e || r.any fun x => !x.settled && x.banks.any fun b => e.banks.contains b then e :: r else r

/-- Marks the entries of a slot among the listed ones that are not settled. -/
def State.markEntries (s : State) (k : Nat) (es : List Entry) (f : Entry → Entry) : State :=
  if es.all Entry.settled then s
  else s.modLog k (updateIf (fun x => !x.settled && es.any fun e => e.seq == x.seq) f)

/-- Forces home the entries of a slot that a test names, and those that stand before them at their banks, at once or
when they have been accepted (R77, R79). -/
def State.crystWhere (s : State) (k : Nat) (p : Entry → Bool) : State :=
  let es := needed p (s.slot k).log.entries
  let s := s.markEntries k es fun e => { e with forced := true }
  let s := es.foldl (fun s e => s.acceptEntry k e) s
  (es.foldl (fun s e => s.crystEntry k e.seq) s).rake k

/-- Some entry of a slot that a test names is not settled at home. -/
def State.unsettled (s : State) (k : Nat) (p : Entry → Bool) : Bool :=
  (s.slot k).log.entries.any fun e => p e && !e.settled

/-- The pans a slot's log holds (R78). -/
def SlotLog.pansHeld (l : SlotLog) : Nat :=
  match l.entries with
  | [] => 0
  | e :: _ => l.pan + 1 - e.pan

/-- Raking pressure: with 12 pans held, the oldest is forced home, and the next, until no more than 11 are held or one
waits; n bounds the pans (R78). -/
def State.pressureFrom (s : State) (k : Nat) : Nat → State
  | 0 => s
  | n + 1 =>
    let l := (s.slot k).log
    if 12 ≤ l.pansHeld then
      match l.entries with
      | [] => s
      | e :: _ =>
        let t := s.crystWhere k fun x => x.pan == e.pan
        if (t.slot k).log.pansHeld < l.pansHeld then t.pressureFrom k n else t
    else s

/-- Raking pressure on a slot's log (R78). -/
def State.pressure (s : State) (k : Nat) : State := s.pressureFrom k 16

/-! ## Views (R80) -/

/-- The entries that a writer recorded in a line must have at home before the line goes (R80). -/
def ViewLine.records (l : ViewLine) (q : Nat) (e : Entry) : Bool := reached q e.seq && e.banks.contains (bankOf (l.line * 64))

/-- The entry waits for its home: for an answer, or for a home that takes nothing for now. -/
def State.waitsHome (s : State) (e : Entry) : Bool := e.unanswered || (e.state == .accepted && e.homes.any s.heldHome)

/-- What still waits for its home of the entries of slot k that a test names, and of those they stand behind; a refused
entry, and what stands behind it alone, holds back no instruction that has issued (R77, R90). -/
def State.awaitedAt (s : State) (k : Nat) (p : Entry → Bool) : List Entry :=
  (needed p ((s.slot k).log.entries.filter fun e => !e.isRefused)).filter s.waitsHome

/-- Drops one line of a core's view: each writer it records is forced home up to its sequence at the line's home
bank, then the line goes; what still waits for its home is awaited (R80). -/
def State.dropLine (s : State) (core : Nat) (l : ViewLine) : State :=
  let s := l.writers.foldl (fun s w =>
    let t := s.crystWhere w.1 (l.records w.2)
    t.markEntries w.1 (t.awaitedAt w.1 (l.records w.2)) fun e => { e with awaited := addKey core e.awaited }) s
  (s.unloose (core * 4 + l.slot) (upFrom (l.line * 64) 64)).modCore core fun c =>
    { c with view := c.view.filter fun x => !x.is l.slot l.line }

/-- Some entry of slot k that a test names is not home and still waits for it, or stands behind one that does
(R77, R90). -/
def State.stalledAt (s : State) (k : Nat) (p : Entry → Bool) : Bool := s.awaitedAt k p != []

/-- A line's drop cannot end yet (R80). -/
def State.dropStalls (s : State) (l : ViewLine) : Bool := l.writers.any fun w => s.stalledAt w.1 (l.records w.2)

/-- A line's drop forces an entry home (R80). -/
def State.dropForces (s : State) (l : ViewLine) : Bool := l.writers.any fun w => s.unsettled w.1 (l.records w.2)

/-- A drop of a line of a core has yet to end (R80). -/
def State.linesWait (s : State) (core : Nat) : Bool :=
  s.slots.any fun x => x.2.log.entries.any fun e => e.awaited.contains core && s.waitsHome e

/-- Drops the lines of a core's view that a test names. -/
def State.dropLines (s : State) (core : Nat) (p : ViewLine → Bool) : State :=
  ((s.core core).view.filter p).foldl (fun s l => s.dropLine core l) s

/-- Writes bytes of one home line into a slot's view line, replacing the least recently used line where there is no
room, and dropping the line first where a fifth writer would contribute (R80). -/
def State.viewWrite (s : State) (k : Nat) (line : Nat) (vline : Word) (bs : List (Nat × Byte)) (w q : Nat) (bad : Bool) :
    State :=
  let core := coreOf k
  let s := s.unloose k (bs.map fun c => line * 64 + c.1)
  let s :=
    match (s.core core).view.find? fun l => l.is (slotNo k) line with
    | some l => if l.writers.length = 4 ∧ (l.writers.all fun x => x.1 != w) then s.dropLine core l else s
    | none =>
      if (s.core core).view.length < 192 then s
      else
        match (s.core core).view.getLast? with
        | some l => s.dropLine core l
        | none => s
  match (s.core core).view.find? fun l => l.is (slotNo k) line with
  | some l =>
    s.modCore core fun c =>
      { c with view := { l with bytes := putBytes l.bytes bs, writers := putWriter l.writers w q, bad := l.bad || bad } ::
                 c.view.filter fun x => !x.is (slotNo k) line }
  | none =>
    s.modCore core fun c =>
      { c with view := { slot := slotNo k, line := line, vline := vline, bytes := putBytes [] bs, writers := [(w, q)],
                         bad := bad } :: c.view }

/-- Replays one entry of writer w into slot k's view, or forces it home where its home is the slot's own scratchpad
(R86). -/
def State.replayEntry (s : State) (k w : Nat) (e : Entry) : State :=
  let own := e.homes.any fun h => match homeOf h with
    | .spad core _ => core == coreOf k
    | _ => false
  if own then s.crystWhere w fun x => x.seq == e.seq
  else
    (byLine (e.homes.zip e.cells)).foldl (fun s l => s.viewWrite k l.line l.vline l.bytes w e.seq e.bad) s

/-- Home key under which a store's byte may stand in slot k's view: where its page maps it now, else the line that was
replayed through its virtual line (R81). -/
def State.viewKey (s : State) (k : Nat) (va : Word) : Option Nat :=
  match s.peekKey k va with
  | some h => some h
  | none => ((s.core (coreOf k)).view.find? fun l => l.slot == slotNo k && l.vline == va &&& ~~~ (63 : Word)).map fun l =>
      l.line * 64 + fld 0 6 va

/-- Home keys in the lines of slot k's view that may turn out to be those of bytes whose page cannot be read now: a page
keeps the low 16 bits (R81, R407; log 84). -/
def State.looseKeys (s : State) (k : Nat) (cells : List (Word × Byte)) : List Nat :=
  (cells.filter fun c => (s.viewKey k c.1).isNone).flatMap fun c =>
    ((s.core (coreOf k)).view.filter fun l => l.slot == slotNo k && l.line % 1024 == fld 6 10 c.1).map fun l =>
      l.line * 64 + fld 0 6 c.1

/-- A shared store's bytes also go into the slot's view line where one stands, which records the slot itself; the lines
are kept that may hold bytes whose home cannot be told yet (R81; log 84). -/
def State.forwardToView (s : State) (k : Nat) (e : Entry) : State :=
  let keys := s.looseKeys k e.cells
  let s := if keys = [] then s else s.modEntry k e.seq fun e => { e with loose := keys }
  (e.cells.filterMap fun c => (s.viewKey k c.1).map fun h => (h, c)) |> byLine |>.foldl (fun s l =>
    if (s.core (coreOf k)).view.any fun x => x.is (slotNo k) l.line then
      s.viewWrite k l.line l.vline l.bytes k e.seq e.bad
    else s) s

/-- The byte of the youngest entry of slot k's own log that covers a home key and has not crystallised, and whether it is
poisoned (R81, R432). Homes are compared where the entry's are known, else virtual addresses. -/
def State.fromLog (s : State) (k key : Nat) (va : Word) : Option (Byte × Bool) :=
  ((s.slot k).log.entries.reverse.filter fun e => !e.settled).findSome? fun e =>
    let cells := if e.homes = [] then e.cells.map fun c => ((s.peekKey k c.1).getD (if c.1 = va then key else 2 ^ 50), c.2)
                 else e.homes.zip (e.cells.map (·.2))
    (cells.reverse.find? fun c => c.1 == key).map fun c => (c.2, e.bad)

/-- The byte of slot k's view line over a home key, and whether it is poisoned (R81, R432). -/
def State.fromView (s : State) (k key : Nat) : Option (Byte × Bool) :=
  match (s.core (coreOf k)).view.find? fun l => l.is (slotNo k) (lineOf key) with
  | some l => (l.bytes.find? fun c => c.1 == key % 64).map fun c => (c.2, l.bad)
  | none => none

/-- The byte a shared load of slot k takes before it asks the home: from its log, or its view (R81). -/
def State.logOrView (s : State) (k key : Nat) (va : Word) : Option (Byte × Bool) :=
  match s.fromLog k key va with
  | some b => some b
  | none => s.fromView k key

/-- The byte a shared load of slot k takes: from its log, its view, or the home (R81). -/
def State.sharedByte (s : State) (k key : Nat) (va : Word) : Byte :=
  match s.logOrView k key va with
  | some b => b.1
  | none => s.homeByte key

/-- That byte is poisoned (R432, R433). -/
def State.sharedBad (s : State) (k key : Nat) (va : Word) : Bool :=
  match s.logOrView k key va with
  | some b => b.2
  | none => s.isBad key

/-- A used view line becomes the most recently used: any shared load over the line is a use of it, DESIGN CHOICE, since
the spec does not say what is (R80, log 66). -/
def State.touchView (s : State) (k key : Nat) : State :=
  match (s.core (coreOf k)).view.find? fun l => l.is (slotNo k) (lineOf key) with
  | some l => s.modCore (coreOf k) fun c => { c with view := l :: c.view.filter fun x => !x.is (slotNo k) (lineOf key) }
  | none => s

/-! ## Releases (R83) -/

/-- The sequence up to which a release of slot k publishes: before its oldest refused entry, else the last entry. -/
def SlotLog.publishTo (l : SlotLog) : Nat :=
  match l.entries.find? Entry.isRefused with
  | some e => mod44 (e.seq + 2 ^ 44 - 1)
  | none => l.seq

/-- Sets a slot's release cell forward (R82, R83). -/
def State.publish (s : State) (k : Nat) : State :=
  s.modSlot k fun t => { t with pub := if reached t.log.publishTo t.pub then t.log.publishTo else t.pub }

/-- Every entry of the slot has its home's answer (R83). -/
def State.answered (s : State) (k : Nat) : Bool := (s.slot k).log.entries.all fun e => !e.unanswered

/-- The oldest refused entry whose STREFUSED is still due (R90). -/
def Slot.dueRefusal (t : Slot) : Option Entry := t.log.entries.find? fun e => e.isRefused && e.trapDue

end Sys2Proof.Machine
end

