-- ==== Sys2Proof/Machine/SysRegs.lean ====
section
/-! DEFINITION. The system registers (R332 to R336): reading, writing field by field, and the landing of results
(R188, R193). -/

namespace Sys2Proof.Machine

/-- Bits of a register that a write at supervisor level may set: the RW and RW(sup) fields of its map (R6, R332). -/
def writable (n : Nat) : Word :=
  if n = 0x002 then 0xFFFFFFFF0000001F
  else if n = 0x005 then 0xFFFF
  else if n = 0x006 then 0xFFFFFFFFFFFFFFFF
  else if n = 0x007 then 0x1FFFF
  else if n = 0x008 then 0xFFFFFFFFFFCFFFFF
  else if n = 0x009 then 0x00007FFFC071FC01
  else if n = 0x00B then 0x0000FFFFFFFFFFFF
  else if n = 0x00C then 0xFFFFFFFF
  else if 0x010 ≤ n ∧ n ≤ 0x017 then 0x00000000FFFFFC79
  else if n = 0x020 then 0xFFFF
  else if n = 0x021 then 0xFFFFFFFFFFFFFFF8
  else if n = 0x022 then 0xFFFFFFFFFFFFFFFF
  else if n = 0x023 then 0x00000FFFFFFFFFFF
  else if n = 0x025 ∨ n = 0x026 then 0xFFFFFFFFFFFFFFFF
  else if n = 0x030 then 0x8F00001F
  else if n = 0x032 then 0xF
  else if n = 0x040 then 0xFFFFFFFFFFFFFFF9
  else if n = 0x041 then 0x0FFFFFFF
  else if n = 0x042 then 0xFFFFFFFFFFFFFF80
  else 0

/-- Bits of a register that a written 1 clears (R6). -/
def clearable (n : Nat) : Word := if n = 0x003 then 0x7F else if n = 0x043 then 0x8000000000000000 else 0

/-- A register's number is in the directory (R332). -/
def isSysReg (n : Nat) : Bool :=
  n ≤ 0x00C || (0x010 ≤ n && n ≤ 0x017) || (0x020 ≤ n && n ≤ 0x026) || (0x030 ≤ n && n ≤ 0x032) ||
  (0x040 ≤ n && n ≤ 0x043) || n == 0x050 || (0x100 ≤ n && n ≤ 0x177)

/-- The register holds a field marked "(sup)", so a task-level SETSR of it raises PRIV (R330, R332). -/
def hasSupField (n : Nat) : Bool :=
  n == 0x002 || n == 0x009 || n == 0x00B || n == 0x00C || (0x010 ≤ n && n ≤ 0x017) ||
  (0x020 ≤ n && n ≤ 0x023) || n == 0x025 || n == 0x026 || n == 0x030 || n == 0x032 || (0x040 ≤ n && n ≤ 0x043)

/-- The register is of context scope (R332). -/
def isContextReg (n : Nat) : Bool := 0x040 ≤ n && n ≤ 0x043

/-- A neighbouring district lies in direction dir of district d (R171). -/
def hasNeighbour (d dir : Nat) : Bool :=
  (dir == 0 && 4 ≤ d) || (dir == 1 && d % 4 != 3) || (dir == 2 && d < 20) || (dir == 3 && d % 4 != 0)

/-- BLT entry n (R171): what the MC measured, its valid bit set where a neighbour lies. -/
def State.bltEntry (s : State) (n : Nat) : Word :=
  if hasNeighbour (n / 4) (n % 4) then setFlag 32 true (lookup 0 s.mc.blt n &&& 0xFFFFFFFF) else 0

/-- TIMEOFS entry n (R172). -/
def State.timeofsEntry (s : State) (n : Nat) : Word := lookup 0 s.mc.timeofs n &&& 0xFFFF

/-- The value of register n for slot k, none where the number is not in the directory (R332, R333). -/
def State.readSys (s : State) (k n : Nat) : Option Word :=
  let t := s.slot k
  let c := s.core (coreOf k)
  let p := (s.part? (s.partNoOf k))
  if n = 0x000 then some t.sys.coord
  else if n = 0x001 then some t.sys.tgext
  else if n = 0x002 then some t.sys.slotcfg
  else if n = 0x003 then some t.sys.fpflags
  else if n = 0x004 then some t.sys.chkint
  else if n = 0x005 then some t.sys.wincfg
  else if n = 0x006 then some t.sys.winseed
  else if n = 0x007 then some t.sys.mxscale
  else if n = 0x008 then some t.sys.geom
  else if n = 0x009 then some t.sys.inbox
  else if n = 0x00A then some t.sys.msglat
  else if n = 0x00B then some t.sys.stalls
  else if n = 0x00C then some t.sys.drophint
  else if 0x010 ≤ n ∧ n ≤ 0x017 then some (t.sys.prgn.toList.getD (n - 0x010) 0)
  else if n = 0x020 then some t.trap.cause
  else if n = 0x021 then some t.trap.pc
  else if n = 0x022 then some t.trap.addr
  else if n = 0x023 then some t.trap.seq
  else if n = 0x024 then some t.trap.status
  else if n = 0x025 then some t.trap.scr0
  else if n = 0x026 then some t.trap.scr1
  else if n = 0x030 then some c.margin
  else if n = 0x031 then some c.replays
  else if n = 0x032 then some c.mweight
  else if n = 0x040 then some ((p.map (·.trapvec)).getD 0)
  else if n = 0x041 then some ((p.map (·.bankkeyKept)).getD 0)
  else if n = 0x042 then some ((p.map (·.ltbase)).getD 0)
  else if n = 0x043 then some ((p.map (·.saveest)).getD 0)
  else if n = 0x050 then some (s.timeOf (coreOf k))
  else if 0x100 ≤ n ∧ n ≤ 0x15F then some (s.bltEntry (n - 0x100))
  else if 0x160 ≤ n ∧ n ≤ 0x177 then some (s.timeofsEntry (n - 0x160))
  else none

/-- A register's value after a write of v to the bits m of it (R6, R333). -/
def fieldWrite (n : Nat) (m v old : Word) : Word :=
  mergeMask (writable n &&& m) v old &&& ~~~ (v &&& m &&& clearable n)

/-- INBOX after a write: a write to size, base or en resets head and tail (R277). -/
def inboxWritten (m v old : Word) : Word :=
  let w := fieldWrite 0x009 m v old
  if m &&& 0x71FC01 = 0 then w else w &&& 0x71FC01

/-- The slot after a write to its INBOX: records of the ring and of the overflow area go with size, base or en
(R277). -/
def Slot.writeInbox (t : Slot) (m v : Word) : Slot :=
  { t with sys := { t.sys with inbox := inboxWritten m v t.sys.inbox },
           spilled := if m &&& 0x71FC01 = 0 then t.spilled else [],
           works := if m &&& 0x71FC01 = 0 then t.works else [] }

/-- Changes the system registers of a slot. -/
def Slot.modSys (t : Slot) (f : SlotSys → SlotSys) : Slot := { t with sys := f t.sys }

/-- Changes the trap registers of a slot. -/
def Slot.modTrap (t : Slot) (f : TrapRegs → TrapRegs) : Slot := { t with trap := f t.trap }

/-- Writes the bits m of slot-scope register n (R332, R333). -/
def Slot.writeSys (t : Slot) (n : Nat) (m v : Word) : Slot :=
  if n = 0x002 then t.modSys fun r => { r with slotcfg := fieldWrite n m v r.slotcfg }
  else if n = 0x003 then t.modSys fun r => { r with fpflags := fieldWrite n m v r.fpflags }
  else if n = 0x005 then t.modSys fun r => { r with wincfg := fieldWrite n m v r.wincfg }
  else if n = 0x006 then t.modSys fun r => { r with winseed := fieldWrite n m v r.winseed }
  else if n = 0x007 then t.modSys fun r => { r with mxscale := fieldWrite n m v r.mxscale }
  else if n = 0x008 then t.modSys fun r => { r with geom := fieldWrite n m v r.geom }
  else if n = 0x009 then t.writeInbox m v
  else if n = 0x00B then t.modSys fun r => { r with stalls := fieldWrite n m v r.stalls }
  else if n = 0x00C then t.modSys fun r => { r with drophint := fieldWrite n m v r.drophint }
  else if h : 0x010 ≤ n ∧ n ≤ 0x017 then
    t.modSys fun r => { r with prgn := r.prgn.set (n - 0x010) (fieldWrite n m v (r.prgn.toList.getD (n - 0x010) 0)) }
  else if n = 0x020 then t.modTrap fun r => { r with cause := fieldWrite n m v r.cause }
  else if n = 0x021 then t.modTrap fun r => { r with pc := fieldWrite n m v r.pc }
  else if n = 0x022 then t.modTrap fun r => { r with addr := fieldWrite n m v r.addr }
  else if n = 0x023 then t.modTrap fun r => { r with seq := fieldWrite n m v r.seq }
  else if n = 0x025 then t.modTrap fun r => { r with scr0 := fieldWrite n m v r.scr0 }
  else if n = 0x026 then t.modTrap fun r => { r with scr1 := fieldWrite n m v r.scr1 }
  else t

/-- MARGIN after a write: an offset above floor is written as floor, and a failing core keeps offset 0
(R336, R430). -/
def Core.writeMargin (c : Core) (m v : Word) : Core :=
  let w := fieldWrite 0x030 m v c.margin
  let ofs := if c.failing then 0 else min (fld 0 5 w) (fld 16 5 w)
  { c with margin := setFld 0 5 ofs w }

/-- Writes the bits m of register n as seen from slot k: slot scope, core scope or context scope. -/
def State.writeSysMasked (s : State) (k n : Nat) (m v : Word) : State :=
  if n = 0x030 then s.modCore (coreOf k) fun c => c.writeMargin m v
  else if n = 0x032 then s.modCore (coreOf k) fun c => { c with mweight := fieldWrite n m v c.mweight }
  else if n = 0x040 then s.modPart (s.partNoOf k) fun p => { p with trapvec := fieldWrite n m v p.trapvec }
  else if n = 0x041 then s.modPart (s.partNoOf k) fun p => { p with bankkeyKept := fieldWrite n m v p.bankkeyKept }
  else if n = 0x042 then s.modPart (s.partNoOf k) fun p => { p with ltbase := fieldWrite n m v p.ltbase }
  else if n = 0x043 then s.modPart (s.partNoOf k) fun p => { p with saveest := fieldWrite n m v p.saveest }
  else s.modSlot k fun t => t.writeSys n m v

/-- Writes register n whole, as a SETSR does (R333). -/
def State.writeSys (s : State) (k n : Nat) (v : Word) : State := s.writeSysMasked k n 0xFFFFFFFFFFFFFFFF v

/-! ## Landing -/

/-- Lands one result in a slot's registers; s0 and p0 take nothing, and flags add to FPFLAGS (R109, R186, R188). -/
def Slot.land (t : Slot) : Landing → Slot
  | .sreg r v => if r = 0 then t else { t with regs := { t.regs with s := t.regs.s.set r.toNat v r.isLt } }
  | .vreg r v => { t with regs := { t.regs with v := t.regs.v.set r.toNat v r.isLt } }
  | .preg r v => if r = 0 then t else { t with regs := { t.regs with p := t.regs.p.set r.toNat v r.isLt } }
  | .fpflags f => t.modSys fun y => { y with fpflags := y.fpflags ||| f.setWidth 64 }
  | .stalls n => t.modSys fun y => { y with stalls := word (min (y.stalls.toNat + n) (2 ^ 48 - 1)) }
  | .dropped => t.modSys fun y => { y with drophint := word (satInc 32 y.drophint.toNat) }
  | .sysreg _ _ | .block _ _ _ | .sent _ => t

/-- Lands one result of slot k; a block is written in place, a SETSR's write takes effect (R193). -/
def State.land (s : State) (k : Nat) : Landing → State
  | .sysreg n v => s.writeSys k n v
  | .sent q => s.modEntry k q fun e => if e.state = .appended then { e with state := .sent } else e
  | .block who o bs => s.homeWrite who (spadKey (coreOf k) o) bs
  | w => s.modSlot k fun t => t.land w

/-- The result is a SETSR's write. -/
def Landing.isSys : Landing → Bool
  | .sysreg _ _ => true
  | _ => false

/-- The result is a block's bytes. -/
def Landing.isBlock : Landing → Bool
  | .block _ _ _ => true
  | _ => false

/-- Lands results in order; a SETSR's write comes before flags and counts that land in the same cycle (R193, R333). -/
def State.landList (s : State) (k : Nat) (ws : List Landing) : State :=
  ((ws.filter Landing.isSys) ++ (ws.filter fun w => !w.isSys)).foldl (fun s w => s.land k w) s

/-- One issue cycle of slot k passes: results due in it land, the older first (R188, R189). -/
def State.tick (s : State) (k : Nat) : State :=
  let due := ((s.slot k).flight.filter fun f => f.left ≤ 1).map (·.what)
  (s.modSlot k fun t =>
    { t with flight := (t.flight.filter fun f => 1 < f.left).map fun f => { f with left := f.left - 1 } }).landList k due

/-- Issue cycles until the last result in flight has landed. -/
def longest (fs : List InFlight) : Nat := (fs.map (·.left)).foldl max 0

/-- n issue cycles pass. -/
def State.ticks (s : State) (k : Nat) : Nat → State
  | 0 => s
  | n + 1 => (s.tick k).ticks k n

/-- Every result slot k has in flight lands, each at its own time (R43). -/
def State.landAll (s : State) (k : Nat) : State := s.ticks k (longest (s.slot k).flight)

/-- Blocks in flight. -/
def blocksIn (fs : List InFlight) : List InFlight := fs.filter fun f => f.what.isBlock

/-- Slot k leaves the issue: its registers take what is in flight, which nothing but the slot can see, and the slot issues
no bundle before the cycle in which the last of it lands; blocks stay in flight until their own times, whichever slot is
issued then (R43). -/
def State.landSwitch (s : State) (k : Nat) : State :=
  let fs := (s.slot k).flight
  if fs = [] then s
  else
    let t := (s.modSlot k fun t => { t with flight := t.flight.filter fun f => !f.what.isBlock }).landAll k
    t.modSlot k fun t =>
      { t with flight := blocksIn fs, landedAt := max t.landedAt ((s.core (coreOf k)).now + longest fs) }

/-- The slots of a core in the order in which results of one cycle land: that of the slot last issued, which is the
youngest, comes last (R189; log 83). -/
def State.landOrder (s : State) (core : Nat) : List Nat :=
  let last := (s.core core).last
  ((upFrom 0 4).filter (fun n => n != last) ++ [last]).map fun n => core * 4 + n

/-- The longest time that anything the slots of a core have in flight still takes. -/
def State.coreLongest (s : State) (core : Nat) : Nat :=
  ((upFrom (core * 4) 4).map fun k => longest (s.slot k).flight).foldl max 0

/-- One cycle of a core passes over what its slots have in flight. -/
def State.coreTick (s : State) (core : Nat) : State :=
  (s.landOrder core).foldl (fun s k => if (s.slot k).flight = [] then s else s.tick k) s

/-- n cycles of a core pass, one after another. -/
def State.coreTicks (s : State) (core : Nat) : Nat → State
  | 0 => s
  | n + 1 => (s.coreTick core).coreTicks core n

/-- n cycles of a core pass over what its slots have in flight, which lands cycle by cycle (R43, R189). -/
def State.corePasses (s : State) (core n : Nat) : State := s.coreTicks core (min n (s.coreLongest core))

/-- Wafer time reaches t: on the cores that issue nothing what is in flight lands by then, each result at its own time
(R11, R43). -/
def State.advance (s : State) (t : Nat) : State :=
  (s.cores.filter fun e => e.2.issuing.isNone && e.2.phase.isNone && s.coreLongest e.1 != 0).foldl (fun s e =>
    (s.corePasses e.1 (t - e.2.now)).modCore e.1 fun c => { c with now := max c.now t }) { s with time := max s.time t }

end Sys2Proof.Machine
end

