-- ==== Sys2Proof/Machine/Tasks.lean ====
section
/-! DEFINITION. Task groups, tokens and slots: completion, killing and the freeing of slots (R31, R33, R37 to R40),
switch points (R42, R43), and wakes. -/

namespace Sys2Proof.Machine

/-! ## Tokens and groups -/

/-- State of token t; token 0 reads DONE (R31, R399). -/
def Part.token (p : Part) (t : Nat) : Token := if t = 0 then .done else lookup .done p.tokens t

/-- The extents of a group: tasks a cluster, clusters a row, rows (R28). -/
def Group.coresPer (g : Group) : Nat := g.ext % 8 + 1
def Group.blocksPer (g : Group) : Nat := g.ext / 8 % 32 + 1
def Group.width (g : Group) : Nat := g.ext / 256 % 32 + 1
def Group.rowsPer (g : Group) : Nat := g.ext / 8192 % 64 + 1
def Group.stages (g : Group) : Nat := g.ext / 524288 % 64 + 1
def Group.prio (g : Group) : Nat := g.ext / 33554432 % 8
def Group.svc (g : Group) : Bool := g.ext / 268435456 % 2 == 1

/-- Tasks of a group in one cluster, and in all. -/
def Group.perCluster (g : Group) : Nat := g.coresPer * g.blocksPer
def Group.total (g : Group) : Nat := g.perCluster * g.width * (g.rowsPer * g.stages)

/-- The logical clusters of a group's footprint in its partition (R34). -/
def Part.footprint (p : Part) (g : Group) : List Nat :=
  (upFrom 0 (g.rowsPer * g.stages)).flatMap fun r => (upFrom 0 g.width).map fun x => (p.py + r) * 24 + p.px + x

/-- Every task of the group has started. -/
def Part.allStarted (p : Part) (g : Group) : Bool :=
  (p.footprint g).all fun cl => lookup 0 g.started cl == g.perCluster

/-- Vector v is masked: by the function's mask, or its vector-control bit in the MSI-X table (R388, R400; log 16). -/
def Port.masked (q : Port) (v : Nat) : Bool :=
  q.msixMask || (q.msix.read (0x100000 + 16 * v + 12)).toNat % 2 == 1

/-- Vector v is pending. -/
def Port.pending (q : Port) (v : Nat) : Bool := (q.msix.read (0x108000 + v / 8)).toNat / 2 ^ (v % 8) % 2 == 1

/-- Sets or clears the pending bit of vector v. -/
def Port.setPending (q : Port) (v : Nat) (b : Bool) : Port :=
  let old := (q.msix.read (0x108000 + v / 8)).toNat
  let bit := 2 ^ (v % 8)
  let new := if b then Nat.lor old bit else old - old / bit % 2 * bit
  { q with msix := q.msix.write (BitVec.ofNat 8 new) (0x108000 + v / 8) }

/-- Vector v reaches the host, or waits as pending while it is masked. -/
def Port.fire (q : Port) (v : Nat) : Port :=
  if q.masked v then q.setPending v true
  else { q with signals := insert (lookup 0 q.signals v + 1) q.signals v }

/-- Pending vectors that are no longer masked reach the host, while MSI-X is enabled (R400, log 16). -/
def Port.firePending (q : Port) : Port :=
  if q.msixOn then
    (upFrom 0 64).foldl (fun q v => if q.pending v && !q.masked v then (q.setPending v false).fire v else q) q
  else q

/-- Signals an MSI-X vector of a port; a port that is down drops it, and so does one whose MSI-X is off (R400, log 16). -/
def State.signal (s : State) (port v : Nat) : State :=
  let q := lookup Port.reset s.host.ports port
  if q.up && q.msixOn then { s with host := { s.host with ports := insert (q.fire v) s.host.ports port } } else s

/-- Signals a vector to the owner's port (R400). -/
def State.signalOwner (s : State) (v : Nat) : State := if s.host.owned then s.signal s.host.owner v else s

/-- Signals a vector on every port (R400). -/
def State.signalAll (s : State) (v : Nat) : State := (upFrom 0 8).foldl (fun s p => s.signal p v) s

/-- A watched token that leaves PENDING signals vector 16 + p (R399). -/
def State.watchToken (s : State) (pn t : Nat) : State :=
  let w := (lookup LaunchPage.reset s.host.pages pn).watch
  if flag 12 w && fld 0 12 w == t then s.signalOwner (16 + pn) else s

/-- Sets a token DONE, and groups that waited on it wait on it no more (R31, R37). -/
def State.tokenDone (s : State) (pn t : Nat) : State :=
  if t = 0 then s
  else
    (s.modPart pn fun p =>
      { p with tokens := insert .done p.tokens t,
               groups := p.groups.map fun g => { g with waits := g.waits.filter fun x => x != t } }).watchToken pn t

/-! ## Slots -/

/-- A block in flight whose task has ended: an ordinary task's lands outside every journal, as its other writes do
(R161, R163). -/
def InFlight.outlives (svc : Bool) (f : InFlight) : Option InFlight :=
  match f.what with
  | .block who o bs => some { f with what := .block (if svc then who else none) o bs }
  | _ => none

/-- Frees a slot: no task, its loop stack cleared; results in flight go with it, but for blocks, which still reach the
scratchpad (R27, R40, R43, R214). Its log keeps its entries (R39). -/
def Slot.freed (t : Slot) : Slot :=
  { t with status := .free, cond := .none, loops := [], flight := t.flight.filterMap (InFlight.outlives t.svc), wd := 0,
           charge := none, charged := [],
           task := none, snap := none, bar := .away, redo := none, quar := false, fuseOut := false,
           sys := { t.sys with coord := setFld 48 16 0 t.sys.coord }, trap := { t.trap with status := 0 } }

/-- The copies, jobs and requests of a slot run on, their completions discarded (R40). -/
def State.orphan (s : State) (k : Nat) : State :=
  { s with copies := updateIf (fun c => c.slot == k) (fun c => { c with orphan := true }) s.copies,
           jobs := updateIf (fun j => j.slot == k) (fun j => { j with orphan := true }) s.jobs,
           masks := updateIf (fun r => r.slot == k) (fun r => { r with orphan := true }) s.masks }

/-- Dissolves the gang that holds a slot; members get the leader's loop stack (R49, R216). -/
def State.dissolve (s : State) (k : Nat) : State :=
  match s.gangs.find? fun g => g.members.contains k with
  | none => s
  | some g =>
    let stack := (s.slot (g.members.headD k)).loops
    { g.members.foldl (fun s m => s.modSlot m fun t => { t with loops := stack }) s with
      gangs := s.gangs.filter fun x => x != g }

/-- A phase has ended, or a barrier released, at a wafer time (R419). -/
def Part.ended (p : Part) (at_ : Nat) : Part := { p with calm := max p.calm at_ }

/-- Ends a core's phase, when it is the slot's (R174, R419). -/
def State.endPhase (s : State) (k : Nat) : State :=
  match (s.core (coreOf k)).phase with
  | some p =>
    if p.slot = k then
      (s.modCore (coreOf k) fun c => { c with phase := none }).modPart (s.partNoOf k) fun x =>
        x.ended (max s.time (s.core (coreOf k)).now)
    else s
  | none => s

/-- The core stops issuing a slot that it no longer can. -/
def State.unissue (s : State) (k : Nat) : State :=
  s.modCore (coreOf k) fun c => if c.issuing = some (slotNo k) then { c with issuing := none } else c

/-- The flits of a slot belong to no participant any more: what becomes of them marks no later task (R158, R173). -/
def State.detachFlits (s : State) (k : Nat) : State :=
  { s with flits := updateIf (fun f => f.src == k) (fun f => { f with orphan := true }) s.flits }

/-- Frees a slot of the device. -/
def State.freeSlot (s : State) (k : Nat) : State :=
  (((((s.dissolve k).endPhase k).unissue k).detachFlits k).unqueue k).modSlot k Slot.freed

/-- A slot's partition is out (R421). -/
def State.outNow (s : State) (k : Nat) : Bool := ((s.partAt (lcolOf k)).map (·.2.out.isSome)).getD false

/-- Wafer time from which the partition of a logical column issues, after a restore (R422). -/
def State.resumesAt (s : State) (lcol : Nat) : Nat := ((s.partAt lcol).map (·.2.resumeAt)).getD 0

/-- A slot's partition is out, or has yet to resume (R421, R422). -/
def State.stillOut (s : State) (k : Nat) : Bool := s.outNow k || s.time < s.resumesAt (lcolOf k)

/-- Where a column's area begins in an image of its partition (R417). -/
def Part.imageArea (p : Part) (base lcol : Nat) : Nat := base + 0x10000 + 0x200000 * p.cols.findIdx fun c => c == lcol

/-- Address in its partition's image of byte o of the scratchpad of slot k's core, while the partition is out (R417). -/
def State.imageSpad (s : State) (k o : Nat) : Option Nat :=
  match s.partAt (lcolOf k) with
  | some (_, p) => p.out.map fun img => p.imageArea img.base (lcolOf k) + 0x28000 * coreNo k + o
  | none => none

/-- Wakes a slot (R42); a core in the phase of another slot keeps its clock. -/
def State.wake (s : State) (k : Nat) : State :=
  (s.modSlot k fun t => { t with status := .ready, cond := .none }).modCore (coreOf k)
    fun c => if (c.phase.map fun p => p.slot != k).getD false then c else { c with now := max c.now s.time }

/-! ## Barrier groups -/

/-- Barrier group g of a partition. -/
def Part.bar (p : Part) (g : Nat) : Bar := lookup Bar.reset p.bars g
def State.barOf (s : State) (pn g : Nat) : Bar := ((s.part? pn).map fun p => p.bar g).getD Bar.reset

/-- Changes a barrier group. -/
def State.modBar (s : State) (pn g : Nat) (f : Bar → Bar) : State :=
  s.modPart pn fun p => { p with bars := insert (f (p.bar g)) p.bars g }

/-- The member has arrived. -/
def Slot.hasArrived (t : Slot) : Bool :=
  match t.bar with
  | .arrived _ _ => true
  | _ => false

/-- Every member has arrived: no task of the group's task groups is still queued, and the started ones stand at a BAR or
a TEND (R50, R155). -/
def State.allArrived (s : State) (pn g : Nat) : Bool :=
  match s.part? pn with
  | none => false
  | some p =>
    let ms := s.members pn g
    ms != [] && (ms.all fun k => (s.slot k).hasArrived) &&
      (p.groups.filter fun x => x.bgrp == g && !x.svc).all p.allStarted

/-! ## The end of a group -/

/-- A barrier of a group has ended without a release: no member is left (R419). -/
def State.endBar (s : State) (pn g : Nat) : State :=
  (s.modBar pn g fun b => { b with stage := .gathering, resume := [], armed := [] }).modPart pn fun p => p.ended s.time

/-- With the last task group of a barrier group go its journal records and the columns it depended on, and a barrier of it
that had its last arrival, which held says, ends (R163, R337, R419). -/
def State.closeBar (s : State) (pn g : Nat) (held : Bool) : State :=
  if (((s.part? pn).map (·.groups)).getD []).any fun x => x.bgrp == g && !x.svc then s
  else
    let t := (s.forgetJournal pn g).modBar pn g fun b => { b with lostCols := [] }
    if held then t.endBar pn g else t

/-- A barrier of the group stands between its last arrival and its release (R419). -/
def State.barHeld (s : State) (pn g : Nat) : Bool := (s.barOf pn g).stage != .gathering || s.allArrived pn g

/-- Kills one live group: its unstarted tasks are gone, its running ones end without a release, its token fails (R40). -/
def State.killOne (s : State) (pn : Nat) (g : Group) : State :=
  let held := s.barHeld pn g.bgrp
  let s := (s.slots.filter fun e => e.2.status != .free && e.2.partNo == pn && e.2.tgid == g.tgid).foldl
    (fun s e => ((s.landSwitch e.1).orphan e.1).freeSlot e.1) s
  let s := s.modPart pn fun p =>
    { p with groups := p.groups.filter fun x => x.tgid != g.tgid,
             tokens := if g.sig = 0 then p.tokens else insert .failed p.tokens g.sig }
  let s := if g.svc then s else s.closeBar pn g.bgrp held
  if g.sig = 0 then s else s.watchToken pn g.sig

/-- Kills a group and every group that waits on a token this fails, without starting a task of theirs (R31, R40); fuel
bounds the chain by the groups there are. -/
def State.killChain (s : State) (pn : Nat) : Nat → List Nat → State
  | 0, _ => s
  | _, [] => s
  | n + 1, t :: ts =>
    match (s.part? pn).bind fun p => p.groups.find? fun g => g.tgid == t with
    | none => s.killChain pn n ts
    | some g =>
      let s := s.killOne pn g
      let next := if g.sig = 0 then [] else
        ((s.part? pn).map fun p => (p.groups.filter fun x => x.waits.contains g.sig).map (·.tgid)).getD []
      s.killChain pn n (next ++ ts)

/-- Kills a task group (R40). -/
def State.killGroup (s : State) (pn tgid : Nat) : State :=
  s.killChain pn (((s.part? pn).map fun p => p.groups.length * p.groups.length + 1).getD 0) [tgid]

/-- The last task of a group ended: the group is complete and its token DONE (R31, R40). -/
def State.completeGroup (s : State) (pn tgid : Nat) : State :=
  match (s.part? pn).bind fun p => (p.groups.find? fun g => g.tgid == tgid).map fun g => (p, g) with
  | some (p, g) =>
    if p.allStarted g && g.ended == g.total then
      let t := s.modPart pn fun p => { p with groups := p.groups.filter fun x => x.tgid != tgid }
      (if g.svc then t else t.closeBar pn g.bgrp false).tokenDone pn g.sig
    else s
  | none => s

/-- A task ends by TEND: results in flight land (R43), its slot is free and its group one task further (R40), and a
member's writes are never restored (R161). -/
def State.endTask (s : State) (k : Nat) : State :=
  let s := s.landSwitch k
  let pn := (s.slot k).partNo
  let tg := (s.slot k).tgid
  (((if (s.slot k).svc then s else s.releaseWrites k).freeSlot k).modPart pn fun p =>
    { p with groups := updateIf (fun g => g.tgid == tg) (fun g => { g with ended := g.ended + 1 }) p.groups }).completeGroup
      pn tg

/-! ## When a switch stops the cores (R419, R420) -/

/-- The clocks of the cores of a partition that are in a phase (R167). -/
def State.partPhases (s : State) (pn : Nat) : List Nat :=
  (s.cores.filter fun e => e.2.phase.isSome && (s.partAt (e.1 / 8)).map (·.1) == some pn).map fun e => e.2.now

/-- A participant of the partition is in a communication phase (R167). -/
def State.partPhase (s : State) (pn : Nat) : Bool := s.partPhases pn != []

/-- No participant of the partition is in a phase, and none of its barriers stands between its last arrival and its
release (R419). -/
def State.calmPart (s : State) (pn : Nat) : Bool :=
  !s.partPhase pn && (upFrom 0 16).all fun g => (s.barOf pn g).stage == .gathering && !s.allArrived pn g

/-- The switch that comes next: the one asked for, or the checkpoint of a slice that falls due before it (R419, R425). -/
def Part.nextSwitch (p : Part) : Option SwitchReq :=
  let slice := p.slice.bind fun x => x.pending.map fun d => ({ out := false, base := x.base, due := d, port := none } : SwitchReq)
  match p.switchReq, slice with
  | some r, some q => some (if q.due < r.due then q else r)
  | some r, none => some r
  | none, q => q

/-- Ts of a switch, once nothing holds it back: when it falls due, or, where it has waited, 64 cycles after the last phase
or release (R419). -/
def Part.switchTime (p : Part) (r : SwitchReq) : Nat := if r.due < p.calm then p.calm + 64 else r.due

/-- Wafer time from which the cores of a partition issue nothing more; while a phase or a barrier holds a switch back, its
Ts cannot come before this (R419). -/
def State.stopTime (s : State) (pn : Nat) (p : Part) (r : SwitchReq) : Nat :=
  if s.calmPart pn then p.switchTime r else max r.due ((s.partPhases pn).foldl max s.time + 64)

/-- The wafer time at which a core is taken up: not before its partition resumes, and outside a phase not before what has
happened on the wafer (R11, R422, log 4). -/
def State.takenAt (s : State) (core : Nat) : Nat :=
  match (s.core core).phase with
  | some _ => max (s.core core).now (s.resumesAt (core / 8))
  | none => max (max (s.core core).now s.time) (s.resumesAt (core / 8))

/-- A core stands still for a switch of its partition (R419). -/
def State.heldBack (s : State) (core : Nat) : Bool :=
  match s.partAt (core / 8) with
  | some (pn, p) =>
    (match p.nextSwitch with
     | some r => (s.core core).phase.isNone && s.stopTime pn p r ≤ s.takenAt core
     | none => false)
  | none => false

/-- An instruction whose answer a switch waits for once it has left the core: an atomic, and what a layer's home answers
(R420). -/
def isAwaited : Instr → Bool
  | .amoAdd _ _ _ _ | .amoSmin _ _ _ _ | .amoSmax _ _ _ _ | .amoUmin _ _ _ _ | .amoUmax _ _ _ _ | .amoAnd _ _ _ _
  | .amoOr _ _ _ _ | .amoXor _ _ _ _ | .amoSwap _ _ _ _ | .amoCas _ _ _ _ | .mbind _ _ | .mver _ _ | .munbind _ => true
  | _ => false

/-- A slot's instruction has left the core, and a switch waits for its answer; of a RELF, its flag write, which leaves once
every entry is answered (R84, R420). -/
def Slot.awaited (t : Slot) : Bool :=
  match t.redo with
  | some r => isAwaited r.instr ||
      (match r.instr, r.cond with
       | .relf _ _, .migration _ => t.log.entries.all fun e => !e.unanswered
       | _, _ => false)
  | none => false

/-- A switch of the partition waits for an answer (R420). -/
def State.partAwaits (s : State) (pn : Nat) : Bool :=
  s.slots.any fun e => e.2.status != .free && e.2.awaited && s.partNoOf e.1 == pn

/-! ## Switch points -/

/-- Rank of a READY slot at a switch point: slot 3 first, then priority, then the order after the slot last issued
(R42). -/
def State.rank (s : State) (core last n : Nat) : Nat :=
  let t := s.slot (core * 4 + n)
  (if n = 3 then 64 else t.prio * 4 + 4) + (3 - (n + 3 - last) % 4)

/-- The gang can issue its next bundle: every member is READY, none still completes an instruction of its own, and no
member's core is on another slot or, at a switch point, goes to slot 3, which a phase keeps from issuing (R42, R48,
R166). -/
def State.gangReady (s : State) (g : Gang) : Bool :=
  g.joining == [] && g.members.all fun k =>
    let c := s.core (coreOf k)
    (s.slot k).status == .ready && (s.slot k).redo.isNone && (c.issuing.getD (slotNo k) == slotNo k) &&
      (c.issuing.isSome || c.phase.isSome || slotNo k == 3 || (s.slot (coreOf k * 4 + 3)).status != .ready)

/-- The slots a core may issue: in a gang, the gang's slot and slot 3, and another that it was issuing when the gang
formed, as far as its switch point (R42, R48); once it stands still for a switch, those whose answer the switch waits for
(R420). -/
def State.mayIssue (s : State) (core n : Nat) : Bool :=
  let k := core * 4 + n
  (s.slot k).status == .ready && (!s.heldBack core || (s.slot k).awaited) &&
    (match s.gangOf core with
     | some g =>
       if g.members.contains k then g.joining.contains k || (s.slot k).redo.isSome || s.gangReady g
       else n == 3 || (s.core core).issuing == some n
     | none => true)

/-- The slot a core picks at a switch point (R42). -/
def State.pick (s : State) (core : Nat) : Option Nat :=
  let last := (s.core core).last
  (((upFrom 0 4).filter fun n => s.mayIssue core n).foldl (fun best n =>
    match best with
    | none => some n
    | some b => if s.rank core last b < s.rank core last n then some n else some b) none)

end Sys2Proof.Machine
end

