-- ==== Sys2Proof/Machine/Ops.lean ====
section
/-! DEFINITION. The named operations of the instructions: operands, results in flight, traps and the return from one
(R187 to R193, R337 to R343), sleeping, local memory and the checks of local operands (R272). -/

namespace Sys2Proof.Machine

/-- A meaning's answer: always a next state. -/
abbrev Result := Host.Outcome State Fault Refusal

/-! ## Operands (R186, R187): read in the issue cycle -/

/-- Scalar register r of a file; s0 reads as zero. -/
def Regs.sreg (g : Regs) (r : SReg) : Word := if r = 0 then 0 else g.s[r.toNat]'r.isLt

/-- Vector register r of a file. -/
def Regs.vreg (g : Regs) (r : VReg) : Vec := g.v[r.toNat]'r.isLt

/-- Predicate register r of a file; p0 reads as true. -/
def Regs.preg (g : Regs) (r : PReg) : Bool := if r = 0 then true else g.p[r.toNat]'r.isLt

/-- Scalar operand of the issuing slot. -/
def State.rs (s : State) (r : SReg) : Word := s.me.regs.sreg r

/-- Vector operand of the issuing slot. -/
def State.rv (s : State) (r : VReg) : Vec := s.me.regs.vreg r

/-- Predicate operand of the issuing slot. -/
def State.rp (s : State) (r : PReg) : Bool := s.me.regs.preg r

/-- Scalar operand that decides control: the gang leader's, or the slot's own (R48). -/
def State.ctlS (s : State) (r : SReg) : Word := (s.slot s.leader).regs.sreg r

/-- Predicate operand that decides control (R48). -/
def State.ctlP (s : State) (r : PReg) : Bool := (s.slot s.leader).regs.preg r

/-! ## Results (R188, R189) -/

/-- Puts a result in flight: it lands after lat issue cycles. -/
def State.result (s : State) (lat : Nat) (w : Landing) : State :=
  s.modMe fun t => { t with flight := t.flight ++ [{ left := lat, what := w }] }

/-- A scalar result. -/
def State.setS (s : State) (lat : Nat) (r : SReg) (v : Word) : State := s.result lat (.sreg r v)

/-- A vector result. -/
def State.setV (s : State) (lat : Nat) (r : VReg) (v : Vec) : State := s.result lat (.vreg r v)

/-- A predicate result. -/
def State.setP (s : State) (lat : Nat) (r : PReg) (v : Bool) : State := s.result lat (.preg r v)

/-- Flags of an instruction, set when its result lands (R109). -/
def State.setFlags (s : State) (lat : Nat) (f : BitVec 7) : State := if f = 0 then s else s.result lat (.fpflags f)

/-! ## Flow -/

/-- A control transfer that may leave a loop (R191, R216). -/
def State.branch (s : State) (target : Word) : State := { s with flow := .taken target true }

/-- The bundle completes at a switch point, the slot READY (R42). -/
def State.switchAfter (s : State) : State := { s with flow := .switched }

/-- The instruction performs, and the slot sleeps until its answer comes back (R42, R187, R192). -/
def State.answerAfter (s : State) : State := { s with flow := .answered }

/-- A scalar result that an answer brings, which comes two cycles after the issue or later (R188, R192). -/
def State.answerS (s : State) (d : SReg) (v : Word) : State := (s.setS 2 d v).answerAfter

/-- A scalar result that lands at once, or, where the slot had to wait, with the answer (R188). -/
def State.setOrAnswerS (s : State) (waits : Bool) (d : SReg) (v : Word) : State :=
  if waits then s.answerS d v else s.setS 1 d v

/-- The slot sleeps and holds its bundle, which issues again when it wakes (R187). -/
def State.hold (s : State) (c : Cond) : State :=
  { s.modMe fun t => { t with status := .asleep, cond := c } with flow := .held }

/-- The instruction has issued and the slot sleeps until it completes (R187). -/
def State.sleep (s : State) (c : Cond) : State :=
  { s.modMe fun t => { t with status := .asleep, cond := c } with flow := .slept }

/-- The slot sleeps behind a page, and takes its place where a repair holds the page's channel (R412, R444). -/
def State.sleepAt (s : State) (va : Word) : State := (s.sleep (.migration va)).enqueue s.cur va

/-! ## Traps (R337 to R340) -/

/-- What the A syllable beside an instruction that slept has done is taken back, when that instruction traps after all
(R187). -/
def State.undoRedo (s : State) (k : Nat) : State :=
  match (s.slot k).redo with
  | none => s
  | some r =>
    let s := s.modSlot k fun t => { t with regs := r.undo, sys := { t.sys with fpflags := r.undoFlags } }
    r.undoBlocks.foldl (fun s b => s.homeWrite (s.writerOf k) (spadKey (coreOf k) b.1) b.2) s

/-- A trap is taken by slot k at a bundle: R339, and R340 for a slot that already runs a handler. -/
def State.takeTrap (s : State) (k : Nat) (pc : Word) (code detail : Nat) (addr : Word) (seq : Option Nat) : State :=
  let s := (s.landSwitch k).undoRedo k
  let t := s.slot k
  if t.sup then s.killGroup t.partNo t.tgid
  else
    let vec := ((s.part? (s.partNoOf k)).map (·.trapvec)).getD 0
    let s := (s.dissolve k).modSlot k fun t =>
      { t with
        trap := { t.trap with cause := word (detail * 256 + code), pc := pc &&& ~~~ (7 : Word), addr := addr,
                              seq := (seq.map word).getD t.trap.seq, status := 1 },
        savedSig := t.sig, sig := 0xFFFF, wd := 0, status := .ready, cond := .none, redo := none,
        quar := code == 0x0A, pc := vec &&& ~~~ (7 : Word) }
    if flag 0 vec then s else s.killGroup t.partNo t.tgid

/-- A precise trap of the bundle that issues (R337). -/
def State.raise (s : State) (code detail : Nat) (addr : Word) : Result :=
  .next { s.takeTrap s.cur s.me.pc code detail addr none with flow := .trapped }

/-- ILLEGAL: TRAPADDR holds the bundle (R337). -/
def State.illegal (s : State) : Result := s.raise 0x01 0 s.ir

/-- PRIV: TRAPADDR holds the bundle (R330, R337). -/
def State.priv (s : State) : Result := s.raise 0x02 0 s.ir

/-- ALIGN at an address (R66, R337). -/
def State.align (s : State) (a : Word) : Result := s.raise 0x03 0 a

/-- PROT at an address (R55, R337). -/
def State.prot (s : State) (a : Word) : Result := s.raise 0x04 0 a

/-- PAGE at an address, with the walk level and whether a table node failed (R337, R408). -/
def State.page (s : State) (a : Word) (level : Nat) (node : Bool) : Result :=
  s.raise 0x05 (level + if node then 16 else 0) a

/-- VERSION with a handle, or a layer for MBIND (R300, R337). -/
def State.version (s : State) (h : Word) : Result := s.raise 0x08 0 h

/-- A SETSR of slot k is not released yet (R193). -/
def State.unreleased (s : State) (k : Nat) : Bool := (s.slot k).flight.any fun f => f.what.isSys

/-- The return from a handler of slot k, which sleeps where a SETSR is not released yet: pc from TRAPPC as it is then,
task level, the task's signature accumulator; the return from a QUAR handler kills the group instead (R155, R343). -/
def State.returnFrom (s : State) (k : Nat) : State :=
  let waits := s.unreleased k
  let u := if waits then s.landSwitch k else s
  if (s.slot k).quar then { u.killGroup (s.slot k).partNo (s.slot k).tgid with flow := .ended }
  else
    let pc := (u.slot k).trap.pc
    { s.modSlot k fun t => { t with pc := pc, sig := t.savedSig, trap := { t.trap with status := 0 } } with
      flow := .jumped waits }

/-! ## Checks -/

/-- A check that may end in a precise trap: code, detail and address. -/
abbrev Check := Except (Nat × Nat × Word)

/-- Goes on with a check's value, or raises its trap. -/
def State.orTrap {α : Type} (s : State) (c : Check α) (f : α → Result) : Result :=
  match c with
  | .ok x => f x
  | .error (code, detail, addr) => s.raise code detail addr

/-- Checks n bytes at an address as a local access of the issuing slot: local, aligned, inside its window, granted
(R254, R272); gives the scratchpad offset. -/
def State.localRange (s : State) (va : Word) (algn n : Nat) (bits : List Nat) : Check Nat :=
  match s.myTarget va with
  | some (.spad core _ o) =>
    if core ≠ coreOf s.cur then .error (0x04, 0, va)
    else if va.toNat % algn ≠ 0 ∨ 0x20000 < o + n then .error (0x03, 0, va)
    else if s.me.permits bits o n then .ok o
    else .error (0x04, 0, va)
  | _ => .error (0x04, 0, va)

/-- Scratchpad offset of a local address, through a window or on-wafer (R56, R62). -/
def localOfs (x : Nat) : Nat := x % 0x20000

/-- A local range to check: address, alignment, length and bits. -/
structure LocalRange where
  va : Word
  algn : Nat
  len : Nat
  bits : List Nat
  deriving DecidableEq, Repr

/-- Checks two local ranges of one instruction, each step over both before the next: decoding, alignment and window, then
regions (R254, R272). -/
def State.localRanges (s : State) (x y : LocalRange) : Check (Nat × Nat) :=
  match s.myTarget x.va, s.myTarget y.va with
  | some (.spad c _ o), some (.spad d _ p) =>
    if c ≠ coreOf s.cur then .error (0x04, 0, x.va)
    else if d ≠ coreOf s.cur then .error (0x04, 0, y.va)
    else if x.va.toNat % x.algn ≠ 0 ∨ 0x20000 < o + x.len then .error (0x03, 0, x.va)
    else if y.va.toNat % y.algn ≠ 0 ∨ 0x20000 < p + y.len then .error (0x03, 0, y.va)
    else if s.me.permits x.bits o x.len = false then .error (0x04, 0, x.va)
    else if s.me.permits y.bits p y.len = false then .error (0x04, 0, y.va)
    else .ok (o, p)
  | some (.spad c _ _), _ => .error (0x04, 0, if c ≠ coreOf s.cur then x.va else y.va)
  | _, _ => .error (0x04, 0, x.va)

/-! ## The own scratchpad (R56, R72) -/

/-- n bytes of the own scratchpad. -/
def State.spadBytes (s : State) (o n : Nat) : List Byte :=
  (upFrom o n).map fun i => s.mem.read (spadKey (coreOf s.cur) i)

/-- The number of n bytes of the own scratchpad. -/
def State.spadNum (s : State) (o n : Nat) : Nat := leNat (s.spadBytes o n)

/-- Writes bytes in place into the own scratchpad under the slot's journal (R72, R162). -/
def State.spadWrite (s : State) (o : Nat) (bs : List Byte) : State :=
  s.homeWrite (s.writerOf s.cur) (spadKey (coreOf s.cur) o) bs

/-- Poison read by the issuing slot sets CHKINT.poison (R159, R255). -/
def State.consume (s : State) (k n : Nat) : State := if s.anyPoison k n then s.setChk s.cur 1 else s

/-! ## Banks (R68 to R70) -/

/-- Bank of line L = o[16:6] of a scratchpad under a key (R68). -/
def bankAt (key : Word) (o : Nat) : Nat :=
  let l := o / 64 % 2048
  let row := l / 16
  let b := fun i => ((l / 2 ^ i % 2 == 1) != parity 7 (Nat.land row (fld (7 * i) 7 key))).toNat
  b 0 + 2 * b 1 + 4 * b 2 + 8 * b 3

/-- Cycles a core's access to bytes at offsets takes: the most distinct lines of one bank (R70). -/
def bankCycles (key : Word) (os : List Nat) : Nat :=
  let ls := (os.map fun o => o / 64 % 2048).eraseDups
  ((upFrom 0 16).map fun b => (ls.filter fun l => bankAt key (l * 64) == b).length).foldl max 0

/-- Another requester of scratchpad banks is at work: a copy, a matrix job, a request at a mask engine, a message on its way,
a launch whose record is due, an access that awaits its answer, a log entry on its way home, or another device, which has
reached the core's scratchpad since its last access (R70). -/
def State.contested (s : State) : Bool :=
  !s.copies.isEmpty || !s.jobs.isEmpty || !s.masks.isEmpty || !s.msgs.isEmpty || s.myCore.probed ||
    (s.parts.any fun e => !e.2.launches.isEmpty) ||
    s.slots.any fun e => (match e.2.cond with | .answer _ => true | _ => false) ||
      e.2.log.entries.any fun x => x.state == .sent || x.state == .accepted

/-- Cycles that an access of n cycles loses to other requesters, with which it alternates: at most one for each of its
own, how many is free (R70; log 71). -/
def State.lostCycles (s : State) (n : Nat) : Nat :=
  if s.contested then (Config.freeByte (s.fresh * 2 ^ 64 + 2 ^ 62)).toNat % (n + 1) else 0

/-- Stall cycles of the issuing slot's access to its scratchpad: counted in STALLS and in the core's time (R70,
R336). -/
def State.stallFor (s : State) (os : List Nat) : State :=
  let c := bankCycles s.curPart.bankkey os
  let n := c - 1 + s.lostCycles c
  let s := if s.contested then { s with fresh := s.fresh + 1 }.modMyCore fun c => { c with probed := false } else s
  if n = 0 then s else (s.result 1 (.stalls n)).modMyCore fun c => { c with now := c.now + n }

/-- Stall cycles of an access of n bytes to a target that is the issuing slot's own scratchpad (R70). -/
def State.stallAt (s : State) (t : Target) (n : Nat) : State :=
  match t, s.isLocal t with
  | .spad _ _ o, true => s.stallFor (upFrom o n)
  | _, _ => s

/-- The access ordinal counts loads, stores and atomics (R93). -/
def State.countAccess (s : State) : State := s.modMe fun t => { t with ordinal := mod44 (t.ordinal + 1) }

end Sys2Proof.Machine
end

