-- ==== Sys2Proof/Machine/Issue.lean ====
section
/-! DEFINITION. Issuing a bundle around the meanings of its syllables: fetch (R64, R177), signatures (R345), loops
(R216), the landing of results (R189), the watchdog (R44) and switch points (R42, R43). -/

namespace Sys2Proof.Machine

/-! ## Fetch -/

/-- How a fetch ends. -/
inductive Fetched where
  | bundle (bits : Word) (s : State)
  | trap (code detail : Nat)
  | stall
  deriving DecidableEq, Repr

/-- Fetches the bundle at the issuing slot's pc through its page (R64, R177, R408); a poisoned line gives its bytes as
stored and sets poison (R432). -/
def State.fetchPage (s : State) : Fetched :=
  let pc := s.me.pc
  let w := if s.behind s.cur pc then .mig else s.translate s.myPart s.curPart pc .fetch
  match w with
  | .ok key _ _ _ _ => .bundle (word (s.mem.num key 8)) ((s.usePage s.myPart pc .fetch w).consume key 8)
  | .page level node => .trap 0x05 (level + if node then 16 else 0)
  | .prot => .trap 0x04 0
  | .mig => .stall

/-- Fetches from a lost column, which answers with poison: the bytes are free (R159, R433, log 11). -/
def State.fetchLost (s : State) (key : Nat) : Fetched :=
  .bundle (word (leNat (s.homeBytes key 8))) { (s.setChk s.cur 1).metLost s.me.pc with fresh := s.fresh + 1 }

/-- Fetches the bundle at the issuing slot's pc. -/
def State.fetch (s : State) : Fetched :=
  match s.myTarget s.me.pc with
  | some (.col lcol o) => if s.lost.contains lcol then s.fetchLost (colKey lcol o) else s.fetchPage
  | some .hbm => s.fetchPage
  | _ => .trap 0x04 0

/-! ## Signatures (R345) -/

/-- Eight shifts of the accumulator. -/
def crcShift : Nat → BitVec 16 → BitVec 16
  | 0, a => a
  | n + 1, a => crcShift n (if a.toNat / 2 ^ 15 % 2 = 1 then (a <<< 1) ^^^ 0x1021 else a <<< 1)

/-- Feeds one byte. -/
def crcByte (a : BitVec 16) (b : Nat) : BitVec 16 := crcShift 8 (a ^^^ BitVec.ofNat 16 (b % 256 * 256))

/-- Feeds one syllable: class, syllable bits [29:9], and whether it transferred control. -/
def feedSyllable (a : BitVec 16) (cls syl : Nat) (t : Bool) : BitVec 16 :=
  let v := cls * 2 ^ 23 + syl / 2 ^ 9 % 2 ^ 21 * 2 + t.toNat
  crcByte (crcByte (crcByte a (v / 65536)) (v / 256)) v

/-- Major of the first syllable of a bundle. -/
def majorOf (ir : Word) : Nat := fld 24 6 ir

/-- The bundle is a pair (R178). -/
def isPair (ir : Word) : Bool := flag 31 ir

/-- The first syllable is of class C. -/
def isC (ir : Word) : Bool := isPair ir || !flag 30 ir

/-- The accumulator after the A syllable of a pair. -/
def feedA (a : BitVec 16) (ir : Word) : BitVec 16 := if isPair ir then feedSyllable a 1 (fld 32 32 ir) false else a

/-- The accumulator after a bundle retires; SIGCHK and ERET feed nothing themselves (R345). -/
def feedBundle (a : BitVec 16) (ir : Word) (t : Bool) : BitVec 16 :=
  if isC ir && (majorOf ir == 0x3A || majorOf ir == 0x39) then a
  else feedA (feedSyllable a (if isC ir then 0 else 1) (fld 0 32 ir) t) ir

/-! ## Loops (R216) -/

/-- The end test of the bundle at pc that transferred no control: the next pc, the stack, and whether a loop went
back. -/
def endTest (pc : Word) : List LoopEntry → Word × List LoopEntry × Bool
  | [] => (pc + 8, [], false)
  | l :: ls =>
    if l.last = pc then
      (if l.remaining - 1 ≠ 0 then (l.start, { l with remaining := l.remaining - 1 } :: ls, true) else endTest pc ls)
    else (pc + 8, l :: ls, false)

/-- A taken branch from pc to target leaves the loops whose range it leaves. -/
def leaveLoops (pc target : Word) : List LoopEntry → List LoopEntry
  | [] => []
  | l :: ls =>
    let inside := fun (a : Word) => decide (l.start ≤ a) && decide (a ≤ l.last)
    if inside pc && !inside target then leaveLoops pc target ls else l :: ls

/-! ## Retiring -/

/-- Watchdog period in issue cycles (R44). -/
def Slot.period (t : Slot) : Nat := 2 ^ max 12 (min 30 (fld 0 5 t.sys.slotcfg))

/-- Leaves the issuing slot at a switch point: its results land at their own times, its watchdog count clears, and its
core picks anew; in a phase its core does not switch, and waits until they have landed (R42, R43, R166, R339). -/
def State.switchPoint (s : State) (k : Nat) : State :=
  match (s.core (coreOf k)).phase with
  | some _ =>
    let n := max (longest (s.slot k).flight) ((s.slot k).landedAt - (s.core (coreOf k)).now)
    (s.corePasses (coreOf k) n).modCore (coreOf k) fun c => { c with now := c.now + n }
  | none => ((s.landSwitch k).modSlot k fun t => { t with wd := 0 }).modCore (coreOf k) fun c => { c with issuing := none }

/-- The slot sleeps until the answer of its instruction comes back, no sooner than two cycles on (R42, R192). -/
def State.awaitAnswer (s : State) (k : Nat) : State :=
  if (s.slot k).status = .ready then
    s.modSlot k fun t => { t with status := .asleep, cond := .answer ((s.core (coreOf k)).now + 2) }
  else s

/-- Slot k follows the leader of a gang. -/
def State.follows (s : State) (k : Nat) : Bool := s.gangs.any fun g => g.members.contains k && g.members.head? != some k

/-- The slots that a forced switch of slot k holds: the gang it leads, or itself (R48). -/
def State.ledBy (s : State) (k : Nat) : List Nat :=
  match s.gangs.find? fun g => g.members.head? == some k with
  | some g => g.members
  | none => [k]

/-- The watchdog's forced switch of a slot whose count has reached its period (R44); the leader's holds every member of
its gang (R48). -/
def State.forceSwitch (s : State) (k : Nat) : State :=
  if (s.slot k).period ≤ (s.slot k).wd then
    (s.ledBy k).foldl State.switchPoint (s.modSlot k fun t => t.modSys fun r =>
      { r with slotcfg := setFld 32 32 (satInc 32 (fld 32 32 r.slotcfg)) r.slotcfg })
  else s

/-- n issue cycles of slot k pass: its results land, and blocks of the other slots of its core, and outside a phase the
watchdog counts, in a gang the leader's (R43, R44, R48, R166, R189). -/
def State.cycles (s : State) (k n : Nat) : State :=
  let s := (s.corePasses (coreOf k) n).modCore (coreOf k) fun c => { c with now := c.now + n }
  match (s.core (coreOf k)).phase with
  | some _ => s
  | none => if s.follows k then s else s.modSlot k fun t => { t with wd := t.wd + n }

/-- Slot k issues nothing more until what it has in flight has landed (R43). -/
def State.waitLanded (s : State) (k : Nat) : State :=
  let n := longest (s.slot k).flight
  (s.corePasses (coreOf k) n).modCore (coreOf k) fun c => { c with now := c.now + n }

/-- The slot's own FUSE has formed a gang that has yet to start (R47). -/
def State.joinsGang (s : State) : Bool := s.gangs.any fun g => g.members.contains s.cur && g.joining != []

/-- The loop stack that a bundle's end test goes by: the leader's, of a FUSE the slot's own, since the gang starts after
it; an instruction that slept has kept it (R47, R216). -/
def State.testStack (s : State) : List LoopEntry :=
  match s.flow with
  | .resumed stack => stack
  | _ => if s.joinsGang then s.me.loops else (s.slot s.leader).loops

/-- The issuing slot's bundle completes: signature, loops, pc and issue cycles (R177, R189, R191, R216, R345). -/
def State.retire (s : State) : State :=
  let k := s.cur
  let pc := s.me.pc
  match s.flow with
  | .taken target leaves =>
    (s.modMe fun t => { t with sig := feedBundle t.sig s.ir true, pc := target,
                               loops := if leaves then leaveLoops pc target t.loops else t.loops }).cycles k 2
  | .jumped _ => (s.modMe fun t => { t with sig := feedBundle t.sig s.ir false }).cycles k 1
  | _ =>
    let (next, stack, back) := endTest pc s.testStack
    (s.modMe fun t => { t with sig := feedBundle t.sig s.ir back, pc := next, loops := stack }).cycles k 1

/-- What a restore gives back to a slot, as it stands now (R51, R162, R332). -/
def State.snapshot (s : State) (k : Nat) (participant : Bool) : Snapshot :=
  let t := s.slot k
  { regs := t.regs, flight := t.flight, pc := t.pc, loops := t.loops, sig := t.sig, fpflags := t.sys.fpflags,
    wincfg := t.sys.wincfg, winseed := t.sys.winseed, mxscale := t.sys.mxscale, geom := t.sys.geom,
    msglat := t.sys.msglat, head := fld 30 17 t.sys.inbox, stoch := t.stoch, counters := t.counters,
    participant := participant, gang := s.gangs.find? fun g => g.members.contains k }

/-- A BAR that passed has completed: the superstep begins, and its state is what a restore gives back (R51, R162). -/
def State.finishBar (s : State) (k : Nat) : State :=
  match (s.slot k).bar with
  | .passed _ part =>
    if isC s.ir && majorOf s.ir == 0x28 && !(s.slot k).sup then
      s.modSlot k fun t => { t with snap := some (s.snapshot k part), bar := .away }
    else s
  | _ => s

/-- The issuing slot keeps its place at an NI only while it waits there (R444). -/
def State.leaveQueue (s : State) : State :=
  match s.me.status, s.me.cond with
  | .asleep, .migration _ => s
  | _, _ => s.unqueue s.cur

/-- What follows a bundle's syllables, by what they did to control. A YIELD or a sleep in the very cycle in which the
period's count ends is an ordinary switch point and counts nothing in wdevt (R44; DESIGN CHOICE, log 93). -/
def State.settle (s : State) : State :=
  let k := s.cur
  let s := s.leaveQueue
  let completed := fun (s : State) => s.modCore (coreOf k) fun c => { c with consec := 0 }
  match s.flow with
  | .seq | .taken _ _ | .jumped false => completed ((s.retire.finishBar k).forceSwitch k)
  | .resumed _ => completed (s.retire.waitLanded k)
  | .switched => completed (s.retire.switchPoint k)
  | .answered | .jumped true => completed ((s.retire.switchPoint k).awaitAnswer k)
  | .trapped | .held | .slept => s.switchPoint k
  | .ended => completed (s.modCore (coreOf k) fun c => { c with issuing := none })

/-- The blocks among results in flight, each with the bytes that now stand where it will land. -/
def State.blocksOver (s : State) (fs : List InFlight) : List (Nat × List Byte) :=
  fs.filterMap fun f => match f.what with
    | .block _ o bs => some (o, s.spadBytes o bs.length)
    | _ => none

/-- Remembers the syllable of an instruction that issued and sleeps: what it read, and what to leave if it traps after
all, without the results of the A syllable beside it (R187). -/
def State.rememberRedo (s : State) (i : Instr) (afterC : State) : State :=
  if s.flow = .slept then
    let before := afterC.landAll s.cur
    let blocks := before.blocksOver (s.me.flight.drop afterC.me.flight.length)
    let r : Redo := { instr := i, cond := s.me.cond, ir := s.ir, read := s.me.regs, undo := before.me.regs,
                      undoFlags := before.me.sys.fpflags, undoBlocks := blocks, loops := (s.slot s.leader).loops }
    s.modMe fun t => { t with redo := some r }
  else s

/-- What follows when an instruction that slept is tried again: it sleeps on, or traps, or completes with the registers
as they stand now, and the slot goes on. -/
def State.endRedo (s : State) (r : Redo) (now : Regs) : State :=
  match s.flow with
  | .slept => s.modMe fun t => { t with regs := now, redo := some { r with cond := t.cond } }
  | .trapped | .ended => s
  | .held => (s.undoRedo s.cur).modMe fun t => { t with redo := none }
  | _ => { (s.modMe fun t => { t with regs := now, redo := none }) with flow := .resumed r.loops }

/-- A STREFUSED is due to slot k, and its level, its core's phase and its partition, which is out no more, let it be taken
(R90, R166, R340, R420). -/
def State.strefusedDue (s : State) (k : Nat) : Bool :=
  (s.slot k).dueRefusal.isSome && !(s.slot k).sup && (s.core (coreOf k)).phase.isNone && !s.stillOut k

/-! ## Whose turn it is -/

/-- Wafer times at which flits are to leave. -/
def State.departures (s : State) : List Nat :=
  s.cores.flatMap fun e =>
    match e.2.phase with
    | some p => p.sends.map (·.depart)
    | none => []

/-- Wafer times at which flits under way arrive. -/
def State.arrivals (s : State) : List Nat := (s.flits.filter fun f => !f.notice).map (·.arrives)

/-- Wafer time of an offset of a phase on a core, and the offset of a wafer time (R167). -/
def State.phaseTime (s : State) (core t0 o : Nat) : Nat :=
  ((t0 : Int) + o - s.ofsOf (districtOf (s.place (core / 8)).1)).toNat
def State.phaseOffset (s : State) (core t0 w : Nat) : Nat :=
  ((w : Int) + s.ofsOf (districtOf (s.place (core / 8)).1) - t0).toNat

/-- A participant whose core stands at a wafer time can issue: before offset 2^20, where its phase ends, or in the COMMEND
that ends it (R167, R174). -/
def State.beforeLimit (s : State) (core : Nat) (p : Phase) (now : Nat) : Bool :=
  p.ending || decide (s.phaseOffset core p.t0 now < 2 ^ 20)

/-- The clocks of the cores in a phase whose participant can issue. -/
def State.phaseClocks (s : State) : List Nat :=
  s.cores.filterMap fun e =>
    match e.2.phase with
    | some p =>
      if (s.slot p.slot).status = .ready ∧ s.beforeLimit e.1 p e.2.now then some e.2.now else none
    | none => none

/-- In a phase what happens on the wafer is taken in the order of its times: a core issues when no other participant, no
flit to leave and no flit to arrive comes before it, and before the phase's limit (R167, R169, R173). -/
def State.inTurn (s : State) (core : Nat) : Bool :=
  match (s.core core).phase with
  | some p =>
    let now := (s.core core).now
    (s.phaseClocks.all fun w => now ≤ w) && (s.departures.all fun w => now < w) &&
      (s.arrivals.all fun w => now < w) && s.beforeLimit core p now
  | none => true

/-- The slot a core would issue: the one it is on until its switch point, be it kept from issuing, else the one it picks;
in a phase only the participant (R42, R48, R166). A core that stands still for a switch issues what that waits for
(R420). -/
def State.nextSlot (s : State) (core : Nat) : Option Nat :=
  match (s.core core).phase with
  | some p => if s.mayIssue core (slotNo p.slot) then some (slotNo p.slot) else none
  | none =>
    match (s.core core).issuing with
    | some n =>
      if s.mayIssue core n then some n
      else if (s.slot (core * 4 + n)).status = .ready ∧ s.heldBack core = false then none
      else s.pick core
    | none => s.pick core

/-- The core's partition is on the wafer and the wafer is not stopped (R421, R446). -/
def State.running (s : State) (core : Nat) : Bool :=
  !s.mc.stopped &&
    match s.partAt (core / 8) with
    | some (_, p) => p.out.isNone
    | none => false

/-- A core can issue now. -/
def State.canIssue (s : State) (core : Nat) : Bool :=
  s.running core && s.inTurn core && (s.nextSlot core).isSome

/-- The core that issues when the tape names none: the one that issued last as far as its next switch point, else the
next that can, in the order of the cores (log 4). -/
def State.turnOf (s : State) : Option Nat :=
  let c := coreOf s.cur
  if (s.core c).issuing.isSome ∧ s.canIssue c then some c
  else
    let cs := (s.slots.map fun e => coreOf e.1).eraseDups
    ((cs.filter fun x => c < x) ++ cs.filter fun x => x ≤ c).find? fun x => s.canIssue x

/-- The core takes up the slot it issues from. Where it has left the one before, it waits for the two cycles of the
switch, and until what the slot has in flight has landed (R42, R43). -/
def State.takeUpSlot (s : State) (core : Nat) : State :=
  match s.nextSlot core with
  | none => s
  | some n =>
    let k := core * 4 + n
    let at_ := s.takenAt core
    let stays := (s.core core).issuing = some n
    let begins := if stays then at_ else max (at_ + max 2 (longest (s.slot k).flight)) (s.slot k).landedAt
    let t := (if stays then s else s.corePasses core (begins - (s.core core).now)).modCore core fun c =>
      { c with issuing := some n, last := n, now := begins }
    { t.advance begins with cur := k, flow := .seq }

end Sys2Proof.Machine
end

