-- ==== Sys2Proof/Machine/Operands.lean ====
section
/-! DEFINITION. The operand forms of syllables (R180, R181, R186): immediates, branch targets, scaled offsets, size and
type codes, and the shapes of results that many instructions share. -/

namespace Sys2Proof.Machine

/-- A sign-extended immediate (R181). -/
def simm {n : Nat} (x : BitVec n) : Word := x.signExtend 64

/-- The target of a relative branch: its own address plus 8 × imm19 (R181, R208). -/
def relTarget (pc : Word) (imm : BitVec 19) : Word := pc + simm imm * 8

/-- Bytes of a size code: 1, 2, 4 or 8 (R252). -/
def sizeOf (sz : BitVec 2) : Nat := 2 ^ sz.toNat

/-- A 9-bit immediate scaled by the access size (R181, R257). -/
def scaledImm (imm : BitVec 9) (scale : Nat) : Word := simm imm * BitVec.ofNat 64 scale

/-- An index register, scaled by the access size or not (R257). -/
def scaledIndex (b : Word) (sc : Bool) (size : Nat) : Word := if sc then b * BitVec.ofNat 64 size else b

/-- One over true, zero over false (R207). -/
def ofFlag (b : Bool) : Word := if b then 1 else 0

/-- A scalar result of two scalar operands with latency 1 (R195). -/
def State.op2 (s : State) (f : Word → Word → Word) (d a b : SReg) : Result :=
  .next (s.setS 1 d (f (s.rs a) (s.rs b)))

/-- A scalar result of one scalar operand with latency 1 (R199). -/
def State.op1 (s : State) (f : Word → Word) (d a : SReg) : Result := .next (s.setS 1 d (f (s.rs a)))

/-- A predicate result of two scalar operands with latency 1 (R200). -/
def State.cmp2 (s : State) (f : Word → Word → Bool) (d : PReg) (a b : SReg) : Result :=
  .next (s.setP 1 d (f (s.rs a) (s.rs b)))

/-- A predicate result of two predicates with latency 1 (R207). -/
def State.pred2 (s : State) (f : Bool → Bool → Bool) (d a b : PReg) : Result :=
  .next (s.setP 1 d (f (s.rp a) (s.rp b)))

end Sys2Proof.Machine
end

