-- ==== Sys2Proof/Machine/Control.lean ====
section
/-! DEFINITION. Branches, calls, loops, YIELD and gangs (R208 to R218), and the watchdog's and FUSE's timers (R44,
R47). -/

namespace Sys2Proof.Machine

/-- BR (R210). -/
def execBr (imm : BitVec 19) (s : State) : Result := .next (s.branch (relTarget s.me.pc imm))

/-- BRP: taken when the predicate differs from the inversion bit (R211). -/
def execBrp (p : PReg) (inv : Bool) (imm : BitVec 19) (s : State) : Result :=
  if s.ctlP p != inv then .next (s.branch (relTarget s.me.pc imm)) else .next s

/-- CALL: the link goes to s31, and no loop is left (R212, R216). -/
def execCall (imm : BitVec 19) (s : State) : Result :=
  .next { s.setS 1 31 (s.me.pc + 8) with flow := .taken (relTarget s.me.pc imm) false }

/-- The target of JR (R213). -/
def jrTarget (a : Word) (imm : BitVec 9) : Word := a + simm imm * 8

/-- JR: a misaligned target raises ALIGN and moves nothing (R177, R213). -/
def execJr (d a : SReg) (imm : BitVec 9) (s : State) : Result :=
  let t := jrTarget (s.ctlS a) imm
  if fld 0 3 t ≠ 0 then s.align t else .next ((s.setS 1 d (s.me.pc + 8)).branch t)

/-- LOOP (R215): the leader's stack and count govern a gang (R216). -/
def execLoop (d : SReg) (imm : BitVec 19) (s : State) : Result :=
  if imm.toInt ≤ 0 then s.illegal
  else
    let last := relTarget s.me.pc imm
    let n := s.ctlS d
    if n = 0 then .next { s with flow := .taken (last + 8) false }
    else if 4 ≤ (s.slot s.leader).loops.length then s.illegal
    else .next (s.modSlot s.leader fun t =>
      if s.cur = s.leader then { t with loops := { start := s.me.pc + 8, last := last, remaining := n } :: t.loops } else t)

/-- YIELD: a switch point, the slot READY; nothing in a phase (R217). -/
def execYield (s : State) : Result := if s.inPhase then .next s else .next s.switchAfter

/-! ## Gangs -/

/-- The cores a mask names in the block of slot k, ascending (R47). -/
def maskCores (k m : Nat) : List Nat := ((upFrom 0 8).filter fun c => m / 2 ^ c % 2 == 1).map fun c => lcolOf k * 8 + c

/-- A slot of a core that sleeps in FUSE with this mask, for the issuer's task group, its 2^16 cycles not over (R47). -/
def State.fuser (s : State) (core m : Nat) : Option Nat :=
  (upFrom (core * 4) 4).find? fun k =>
    (s.slot k).status == .asleep && (s.slot k).tgid == s.me.tgid && (s.slot k).partNo == s.me.partNo &&
      (match (s.slot k).cond with
       | .gang m' deadline => m' == m && s.myCore.now ≤ deadline
       | _ => false)

/-- The slots of a mask's cores that have executed FUSE with it, the issuer among them; none while one is missing. -/
def State.fusers (s : State) (m : Nat) : Option (List Nat) :=
  (maskCores s.cur m).foldr (fun c r =>
    match r, if c = coreOf s.cur then some s.cur else s.fuser c m with
    | some ks, some k => some (k :: ks)
    | _, _ => none) (some [])

/-- A FUSE of this slot formed a gang and has yet to complete. -/
def State.fused (s : State) : Bool := s.gangs.any fun g => g.joining.contains s.cur

/-- FUSE (R47, R218): forms the gang when every core of the mask has come, else sleeps for at most 2^16 cycles. -/
def execFuse (d a : SReg) (s : State) : Result :=
  let m := fld 0 8 (s.rs a)
  if s.me.sup || s.inPhase then s.illegal
  else if s.fused then
    .next { s.setS 1 d 1 with
      flow := .resumed s.me.loops
      gangs := s.gangs.map fun g => { g with joining := g.joining.filter fun k => k != s.cur } }
  else if (s.gangOf (coreOf s.cur)).isSome then s.illegal
  else if s.me.fuseOut then .next ((s.modMe fun t => { t with fuseOut := false }).setS 1 d 0)
  else if m / 2 ^ coreNo s.cur % 2 = 0 then .next (s.setS 1 d 0)
  else
    match s.fusers m with
    | some ks =>
      let others := ks.filter fun k => k != s.cur
      .next { (others.foldl State.wake s).setS 1 d 1 with
        gangs := s.gangs ++ [{ members := ks, joining := others }] }
    | none => .next (s.hold (.gang m ((s.core (coreOf s.cur)).now + 2 ^ 16)))

/-- SPLIT dissolves the issuer's gang; outside a gang it does nothing (R49, R218). -/
def execSplit (s : State) : Result := .next (s.dissolve s.cur)

/-- FUSE_TIMEOUT: 2^16 cycles passed without the gang; the FUSE wakes and writes 0 (R47). -/
def execFuseTimeout (slot : Nat) (s : State) : Result :=
  match (s.slot slot).status, (s.slot slot).cond with
  | .asleep, .gang _ deadline =>
    if deadline ≤ s.time ∧ s.stillOut slot = false then
      .next ((s.modSlot slot fun t => { t with fuseOut := true }).wake slot)
    else .next s
  | _, _ => .next s

/-- WATCHDOG_FORCED_SWITCH: a slot whose count has reached its period leaves its core and is counted (R44). -/
def execWatchdogForcedSwitch (slot : Nat) (s : State) : Result := .next (s.forceSwitch slot)

end Sys2Proof.Machine
end

