-- ==== Sys2Proof/Machine/Float.lean ====
section
/-! DEFINITION. Floating-point formats and arithmetic (R100 to R107, R120, R223 to R228): operands are decoded, results
are computed exactly and rounded once. -/

namespace Sys2Proof.Machine

/-! ## Formats (R100) -/

/-- A format: exponent and fraction widths, and whether the top exponent is all specials (not so in E4M3). -/
structure Fmt where
  ew : Nat
  mw : Nat
  ieee : Bool
  deriving DecidableEq, Repr

def fmtF64 : Fmt := ⟨11, 52, true⟩
def fmtF32 : Fmt := ⟨8, 23, true⟩
def fmtBF16 : Fmt := ⟨8, 7, true⟩
def fmtF16 : Fmt := ⟨5, 10, true⟩
def fmtE5M2 : Fmt := ⟨5, 2, true⟩
def fmtE4M3 : Fmt := ⟨4, 3, false⟩

/-- The format of a type code 0 to 3 (R182). -/
def fmtOf (t : Nat) : Fmt := if t = 0 then fmtF64 else if t = 1 then fmtF32 else if t = 2 then fmtBF16 else fmtF16

def Fmt.width (f : Fmt) : Nat := f.ew + f.mw + 1
def Fmt.bias (f : Fmt) : Int := 2 ^ (f.ew - 1) - 1
/-- Exponent of the smallest normal number. -/
def Fmt.emin (f : Fmt) : Int := 1 - f.bias
def Fmt.signBit (f : Fmt) : Nat := 2 ^ (f.ew + f.mw)
/-- Bits of the canonical quiet NaN (R102). -/
def Fmt.qnan (f : Fmt) : Nat :=
  if f.ieee then (2 ^ f.ew - 1) * 2 ^ f.mw + 2 ^ (f.mw - 1) else 0x7F
/-- Bits of the largest finite magnitude. -/
def Fmt.maxBits (f : Fmt) : Nat := if f.ieee then (2 ^ f.ew - 1) * 2 ^ f.mw - 1 else 0x7E
/-- Bits of +Inf. -/
def Fmt.infBits (f : Fmt) : Nat := (2 ^ f.ew - 1) * 2 ^ f.mw
/-- The sign's part of an encoding. -/
def Fmt.signed (f : Fmt) (neg : Bool) (mag : Nat) : Nat := (if neg then f.signBit else 0) + mag

/-- A decoded value: a NaN (signalling or not), an infinity, or ± m × 2^e, where m = 0 is a signed zero. -/
inductive Val where
  | nan (sig : Bool)
  | inf (neg : Bool)
  | fin (neg : Bool) (m : Nat) (e : Int)
  deriving DecidableEq, Repr

/-- Decodes an encoding (R100, R102). -/
def Fmt.decode (f : Fmt) (bits : Nat) : Val :=
  let x := bits % 2 ^ f.width
  let neg := decide (f.signBit ≤ x)
  let mag := x % f.signBit
  let ef := mag / 2 ^ f.mw
  let fr := mag % 2 ^ f.mw
  if f.ieee ∧ ef = 2 ^ f.ew - 1 then (if fr = 0 then .inf neg else .nan (decide (fr < 2 ^ (f.mw - 1))))
  else if f.ieee = false ∧ mag = 0x7F then .nan false
  else if ef = 0 then .fin neg fr (f.emin - f.mw)
  else .fin neg (2 ^ f.mw + fr) ((ef : Int) - f.bias - f.mw)

/-! ## Rounding (R105, R106) -/

/-- Rounding modes: codes of R105, and 6 and 7 as RNE. -/
inductive Mode where
  | rne
  | rtz
  | rup
  | rdn
  | rna
  | rod
  deriving DecidableEq, Repr

/-- The mode of an rm field (R105). -/
def modeOf (rm : Nat) : Mode :=
  if rm = 1 then .rtz else if rm = 2 then .rup else if rm = 3 then .rdn else if rm = 4 then .rna
  else if rm = 5 then .rod else .rne

/-- Magnitude m × 2^-s rounded to an integer under a mode, for a value of a sign. -/
def roundShift (md : Mode) (neg : Bool) (m s : Nat) : Nat :=
  let q := m / 2 ^ s
  let r := m % 2 ^ s
  if r = 0 then q
  else
    match md with
    | .rne => if 2 ^ s < 2 * r ∨ (2 * r = 2 ^ s ∧ q % 2 = 1) then q + 1 else q
    | .rna => if 2 ^ s ≤ 2 * r then q + 1 else q
    | .rtz => q
    | .rup => if neg then q else q + 1
    | .rdn => if neg then q + 1 else q
    | .rod => if q % 2 = 0 then q + 1 else q

/-- m × 2^e in units of 2^q, rounded. -/
def roundAt (md : Mode) (neg : Bool) (m : Nat) (e q : Int) : Nat :=
  if q ≤ e then m * 2 ^ (e - q).toNat else roundShift md neg m (q - e).toNat

/-- m × 2^e is a multiple of 2^q. -/
def exactAt (m : Nat) (e q : Int) : Bool := q ≤ e || m % 2 ^ (q - e).toNat == 0

/-- floor(log2) of a nonzero m × 2^e. -/
def topExp (m : Nat) (e : Int) : Int := e + (Nat.log2 m : Int)

/-- a × 2^x against b × 2^y. -/
def ltScaled (a : Nat) (x : Int) (b : Nat) (y : Int) : Bool :=
  if x ≤ y then a < b * 2 ^ (y - x).toNat else a * 2 ^ (x - y).toNat < b

/-- What a magnitude above the largest finite is delivered as (R106). -/
def Fmt.overflow (f : Fmt) (md : Mode) (neg : Bool) : Nat × Fl :=
  if f.ieee = false then (f.signed neg f.maxBits, ofFl ||| nxFl ||| satFl)
  else
    let toInf := match md with
      | .rne | .rna => true
      | .rtz | .rod => false
      | .rup => !neg
      | .rdn => neg
    (f.signed neg (if toInf then f.infBits else f.maxBits), ofFl ||| nxFl)

/-- Rounds ± m × 2^e once into a format, with flags (R101, R105, R106, R108). -/
def Fmt.round (f : Fmt) (md : Mode) (neg : Bool) (m : Nat) (e : Int) : Nat × Fl :=
  if m = 0 then (f.signed neg 0, noFl)
  else
    let top := topExp m e
    let qu := top - f.mw
    let ru := roundAt md neg m e qu
    let big := match f.decode f.maxBits with
      | .fin _ mm me => ltScaled mm me ru qu
      | _ => false
    if big then f.overflow md neg
    else
      let q := max qu (f.emin - f.mw)
      let r := roundAt md neg m e q
      let inexact := !exactAt m e q
      let tiny := ltScaled ru qu 1 f.emin
      let bits := if q = f.emin - f.mw then r else ((q + f.mw + f.bias).toNat - 1) * 2 ^ f.mw + r
      (f.signed neg bits, flIf inexact nxFl ||| flIf (tiny && inexact) ufFl)

/-! ## Values -/

/-- The sign of a value's encoding. -/
def Fmt.neg (f : Fmt) (bits : Nat) : Bool := bits / f.signBit % 2 == 1

/-- Whether a value is a NaN, a signalling NaN. -/
def Val.isNan : Val → Bool
  | .nan _ => true
  | _ => false
def Val.isSig : Val → Bool
  | .nan s => s
  | _ => false

/-- The exact sum of two finite values, as a signed magnitude with exponent. -/
def addExact (n1 : Bool) (m1 : Nat) (e1 : Int) (n2 : Bool) (m2 : Nat) (e2 : Int) : Int × Int :=
  let e := min e1 e2
  let a : Int := (m1 * 2 ^ (e1 - e).toNat : Nat)
  let b : Int := (m2 * 2 ^ (e2 - e).toNat : Nat)
  ((if n1 then -a else a) + (if n2 then -b else b), e)

/-- The canonical NaN, with NV when it arises from a signalling operand or an invalid operation. -/
def Fmt.nanOut (f : Fmt) (nv : Bool) : Nat × Fl := (f.qnan, flIf nv nvFl)

/-- The sum of two values rounded once; an exact zero is +0, or −0 under RDN, unless both operands are zeros of one sign
(R102). -/
def Fmt.addVal (f : Fmt) (md : Mode) : Val → Val → Nat × Fl
  | .nan a, y => f.nanOut (a || y.isSig)
  | x, .nan b => f.nanOut (x.isSig || b)
  | .inf a, .inf b => if a = b then (f.signed a f.infBits, noFl) else f.nanOut true
  | .inf a, .fin _ _ _ => (f.signed a f.infBits, noFl)
  | .fin _ _ _, .inf b => (f.signed b f.infBits, noFl)
  | .fin n1 m1 e1, .fin n2 m2 e2 =>
    let (z, e) := addExact n1 m1 e1 n2 m2 e2
    if z = 0 then (f.signed (if m1 = 0 ∧ m2 = 0 ∧ n1 = n2 then n1 else md == .rdn) 0, noFl)
    else f.round md (decide (z < 0)) z.natAbs e

/-- Negates a value. -/
def Val.negate : Val → Val
  | .nan s => .nan s
  | .inf n => .inf (!n)
  | .fin n m e => .fin (!n) m e

/-- The exact product of two values; none for an invalid one, 0 × Inf. -/
def Val.mul : Val → Val → Option Val
  | .nan a, y => some (.nan (a || y.isSig))
  | x, .nan b => some (.nan (x.isSig || b))
  | .inf a, .inf b => some (.inf (a != b))
  | .inf a, .fin b m _ => if m = 0 then none else some (.inf (a != b))
  | .fin a m _, .inf b => if m = 0 then none else some (.inf (a != b))
  | .fin a m1 e1, .fin b m2 e2 => some (.fin (a != b) (m1 * m2) (e1 + e2))

/-- A value rounded once. -/
def Fmt.ofVal (f : Fmt) (md : Mode) : Val → Nat × Fl
  | .nan s => f.nanOut s
  | .inf n => if f.ieee then (f.signed n f.infBits, noFl) else (f.signed n f.maxBits, satFl)
  | .fin n m e => f.round md n m e

/-- FADD, FSUB, FMUL (R223). -/
def Fmt.add (f : Fmt) (md : Mode) (a b : Nat) : Nat × Fl := f.addVal md (f.decode a) (f.decode b)
def Fmt.sub (f : Fmt) (md : Mode) (a b : Nat) : Nat × Fl := f.addVal md (f.decode a) (f.decode b).negate
def Fmt.mul (f : Fmt) (md : Mode) (a b : Nat) : Nat × Fl :=
  match (f.decode a).mul (f.decode b) with
  | none => f.nanOut true
  | some v => f.ofVal md v

/-- FFMA: a × b + c with one rounding; 0 × Inf is invalid whatever the addend (R223). -/
def Fmt.fma (f : Fmt) (md : Mode) (a b c : Nat) : Nat × Fl :=
  match (f.decode a).mul (f.decode b) with
  | none => f.nanOut true
  | some v => f.addVal md v (f.decode c)

/-- FDIV (R120, R223). The quotient carries enough bits, its lowest set when a remainder is left. -/
def Fmt.div (f : Fmt) (md : Mode) (a b : Nat) : Nat × Fl :=
  match f.decode a, f.decode b with
  | .nan s, y => f.nanOut (s || y.isSig)
  | x, .nan s => f.nanOut (x.isSig || s)
  | .inf _, .inf _ => f.nanOut true
  | .inf n, .fin k _ _ => (f.signed (n != k) f.infBits, noFl)
  | .fin n _ _, .inf k => (f.signed (n != k) 0, noFl)
  | .fin n m1 e1, .fin k m2 e2 =>
    if m2 = 0 then (if m1 = 0 then f.nanOut true else (f.signed (n != k) f.infBits, dzFl))
    else
      let s := 2 * f.mw + 8
      let num := m1 * 2 ^ s
      let q := num / m2
      f.round md (n != k) (2 * q + if num % m2 = 0 then 0 else 1) (e1 - e2 - s - 1)

/-- The integer square root, one bit of the result at a time from bit n down. -/
def isqrtFrom : Nat → Nat → Nat → Nat
  | 0, x, r => if (r + 1) * (r + 1) ≤ x then r + 1 else r
  | n + 1, x, r =>
    if (r + 2 ^ (n + 1)) * (r + 2 ^ (n + 1)) ≤ x then isqrtFrom n x (r + 2 ^ (n + 1)) else isqrtFrom n x r

/-- The integer square root. -/
def isqrt (x : Nat) : Nat := isqrtFrom (Nat.log2 x / 2 + 1) x 0

/-- The root of m × 2^e to many bits, its lowest set when it is inexact: significand and exponent. -/
def sqrtScaled (bits m : Nat) (e : Int) : Nat × Int :=
  let s := 2 * bits + if e % 2 = 0 then 0 else 1
  let x := m * 2 ^ s
  let r := isqrt x
  (2 * r + if r * r = x then 0 else 1, (e - s) / 2 - 1)

/-- FSQRT (R120, R223). -/
def Fmt.sqrt (f : Fmt) (md : Mode) (a : Nat) : Nat × Fl :=
  match f.decode a with
  | .nan s => f.nanOut s
  | .inf n => if n then f.nanOut true else (f.infBits, noFl)
  | .fin n m e =>
    if m = 0 then (f.signed n 0, noFl)
    else if n then f.nanOut true
    else
      let (r, x) := sqrtScaled (f.mw + 4) m e
      f.round md false r x

/-! ## Minimum, maximum and comparison (R224, R225) -/

/-- The value as a signed integer in units of 2^e, for comparing finite values. -/
def cmpFinite (n1 : Bool) (m1 : Nat) (e1 : Int) (n2 : Bool) (m2 : Nat) (e2 : Int) : Int := (addExact n1 m1 e1 (!n2) m2 e2).1

/-- Three-way comparison of values that are not NaN: negative, zero or positive. -/
def Val.cmp : Val → Val → Int
  | .inf a, .inf b => if a = b then 0 else if a then -1 else 1
  | .inf a, _ => if a then -1 else 1
  | _, .inf b => if b then 1 else -1
  | .fin n1 m1 e1, .fin n2 m2 e2 => cmpFinite n1 m1 e1 n2 m2 e2
  | _, _ => 0

/-- −0 ranks below +0 (R224). -/
def Fmt.below (f : Fmt) (a b : Nat) : Bool :=
  let c := (f.decode a).cmp (f.decode b)
  c < 0 || (c == 0 && f.neg a && !f.neg b)

/-- FMIN and FMAX (R224). -/
def Fmt.minmax (f : Fmt) (wantMax : Bool) (a b : Nat) : Nat × Fl :=
  let x := f.decode a
  let y := f.decode b
  if x.isNan ∨ y.isNan then f.nanOut (x.isSig || y.isSig)
  else
    let first := if wantMax then f.below b a else f.below a b
    ((if first then a else b) % 2 ^ f.width, noFl)

/-- FMINN and FMAXN (R224). -/
def Fmt.minmaxNum (f : Fmt) (wantMax : Bool) (a b : Nat) : Nat × Fl :=
  let x := f.decode a
  let y := f.decode b
  let nv := flIf (x.isSig || y.isSig) nvFl
  if x.isNan ∧ y.isNan then (f.qnan, nv)
  else if x.isNan then (b % 2 ^ f.width, nv)
  else if y.isNan then (a % 2 ^ f.width, nv)
  else f.minmax wantMax a b

/-- The conditions of FCMP in the order of their codes (R225). -/
inductive FCond where
  | eq
  | ne
  | lt
  | le
  | un
  | ord
  deriving DecidableEq, Repr

/-- FCMP (R225). -/
def Fmt.cmp (f : Fmt) (c : FCond) (a b : Nat) : Bool × Fl :=
  let x := f.decode a
  let y := f.decode b
  let un := x.isNan || y.isNan
  let sig := flIf (x.isSig || y.isSig) nvFl
  let d := x.cmp y
  match c with
  | .eq => (!un && d == 0, sig)
  | .ne => (un || d != 0, sig)
  | .lt => (!un && d < 0, flIf un nvFl)
  | .le => (!un && d ≤ 0, flIf un nvFl)
  | .un => (un, sig)
  | .ord => (!un, sig)

/-- FCLASS (R227). -/
def Fmt.classOf (f : Fmt) (a : Nat) : Nat :=
  let n := f.neg a
  match f.decode a with
  | .nan s => if s then 8 else 9
  | .inf _ => if n then 0 else 7
  | .fin _ m _ =>
    if m = 0 then (if n then 3 else 4)
    else if m < 2 ^ f.mw then (if n then 2 else 5)
    else (if n then 1 else 6)

/-! ## Conversions (R226) -/

/-- A finite value rounded to an integer under a mode. -/
def toInt (md : Mode) (neg : Bool) (m : Nat) (e : Int) : Int :=
  let r : Int := (roundAt md neg m e 0 : Nat)
  if neg then -r else r

/-- The range of an integer type of w bits. -/
def intLo (w : Nat) (u : Bool) : Int := if u then 0 else -(2 ^ (w - 1) : Nat)
def intHi (w : Nat) (u : Bool) : Int := if u then (2 ^ w : Nat) - 1 else (2 ^ (w - 1) : Nat) - 1

/-- Width of an integer type code 4 to 7: I64, I32, I16, I8 (R182). -/
def intWidth (t : Nat) : Nat := 2 ^ (10 - t)

/-- Lane width of any type code (R182). -/
def laneWidth (t : Nat) : Nat := if t = 0 then 64 else if t = 1 then 32 else if t ≤ 3 then 16 else intWidth t

/-- Lanes of a vector of a type (R182). -/
def laneCount (t : Nat) : Nat := 512 / laneWidth t

/-- A float to an integer: saturates with NV, NaN gives 0 with NV, inexact gives NX (R107, R226). -/
def floatToInt (f : Fmt) (md : Mode) (w : Nat) (u : Bool) (a : Nat) : Int × Fl :=
  match f.decode a with
  | .nan _ => (0, nvFl)
  | .inf n => (if n then intLo w u else intHi w u, nvFl)
  | .fin n m e =>
    let i := toInt md n m e
    if i < intLo w u then (intLo w u, nvFl)
    else if intHi w u < i then (intHi w u, nvFl)
    else (i, flIf (!exactAt m e 0) nxFl)

/-- An integer to a float. -/
def intToFloat (f : Fmt) (md : Mode) (i : Int) : Nat × Fl := f.round md (decide (i < 0)) i.natAbs 0

/-- Clamps an integer to a type's range; SAT when clamped. -/
def clampInt (w : Nat) (u : Bool) (i : Int) : Int × Fl :=
  if i < intLo w u then (intLo w u, satFl) else if intHi w u < i then (intHi w u, satFl) else (i, noFl)

/-- Reads an integer of w bits as signed or unsigned. -/
def readInt (w : Nat) (u : Bool) (a : Nat) : Int := if u then ((a % 2 ^ w : Nat) : Int) else
  (let y := a % 2 ^ w; if y < 2 ^ (w - 1) then (y : Int) else (y : Int) - (2 ^ w : Nat))

/-- FCVT between two type codes: the result's bits in the target's own width (R226). -/
def convert (md : Mode) (u : Bool) (t s a : Nat) : Nat × Fl :=
  if t < 4 then
    if s < 4 then
      let v := (fmtOf s).decode a
      if t = s then (if v.isNan then ((fmtOf t).qnan, flIf v.isSig nvFl) else (a % 2 ^ laneWidth s, noFl))
      else (fmtOf t).ofVal md v
    else intToFloat (fmtOf t) md (readInt (intWidth s) u a)
  else
    let w := intWidth t
    let r := if s < 4 then floatToInt (fmtOf s) md w u a else clampInt w u (readInt (intWidth s) u a)
    ((r.1 % (2 ^ w : Nat)).toNat, r.2)

end Sys2Proof.Machine
end

