-- ==== Sys2Proof/Machine/Blocks.lean ====
section
/-! DEFINITION. Philox and stochastic rounding (R110, R113), typed narrowing and widening (R114), the MX quantiser (R104,
R115), GAB blocks (R123 to R125) and ABF blocks (R126, R127), on numbers and byte lists. -/

namespace Sys2Proof.Machine

/-! ## Philox4x32-10 (R110) -/

/-- Rounds of Philox, n of them, on a counter of four words and a key of two. -/
def philoxRounds : Nat → Nat × Nat × Nat × Nat → Nat × Nat → Nat × Nat × Nat × Nat
  | 0, c, _ => c
  | n + 1, (c0, c1, c2, c3), (k0, k1) =>
    let p0 := 0xD2511F53 * c0
    let p1 := 0xCD9E8D57 * c2
    philoxRounds n
      (xorNat (xorNat (p1 / 2 ^ 32) c1) k0, p1 % 2 ^ 32, xorNat (xorNat (p0 / 2 ^ 32) c3) k1, p0 % 2 ^ 32)
      ((k0 + 0x9E3779B9) % 2 ^ 32, (k1 + 0xBB67AE85) % 2 ^ 32)

/-- Philox under a key. -/
def philox (c : Nat × Nat × Nat × Nat) (k : Nat × Nat) : Nat × Nat × Nat × Nat := philoxRounds 10 c k

/-- The random word of one element of a stochastic store (R111): seed, address, generation, counter. -/
def storeWord (seed addr : Word) (g n : Nat) : Nat :=
  (philox (addr.toNat % 2 ^ 32, addr.toNat / 2 ^ 32, g % 2 ^ 32, n % 2 ^ 32) (seed.toNat % 2 ^ 32, seed.toNat / 2 ^ 32)).1

/-! ## Stochastic rounding (R113) -/

/-- How one element of a store is rounded: under a mode, or stochastically with its word. -/
inductive Rnd where
  | mode (md : Mode)
  | sr (word : Nat)
  deriving DecidableEq, Repr

/-- The mode that decides tininess, and beyond the largest magnitude the value (R101, R113). -/
def Rnd.plain : Rnd → Mode
  | .mode md => md
  | .sr _ => .rne

/-- m × 2^e in units of 2^q, rounded up when the word lies below the part cut off. -/
def stochAt (word m : Nat) (e q : Int) : Nat :=
  if q ≤ e then m * 2 ^ (e - q).toNat
  else
    let s := (q - e).toNat
    m / 2 ^ s + if word < m % 2 ^ s * 2 ^ 32 / 2 ^ s then 1 else 0

/-- ± m × 2^e in units of 2^q, rounded; a magnitude above lm × 2^le is rounded under the plain mode. -/
def Rnd.at (r : Rnd) (neg : Bool) (m : Nat) (e q : Int) (lm : Nat) (le : Int) : Nat :=
  match r with
  | .mode md => roundAt md neg m e q
  | .sr w => if ltScaled lm le m e then roundAt .rne neg m e q else stochAt w m e q

/-- The largest finite magnitude of a format as m × 2^e. -/
def Fmt.top (f : Fmt) : Nat × Int :=
  match f.decode f.maxBits with
  | .fin _ m e => (m, e)
  | _ => (0, 0)

/-- A finite value stored into a format (R113, R114). -/
def Fmt.storeFinite (f : Fmt) (r : Rnd) (neg : Bool) (m : Nat) (e : Int) : Nat × Fl :=
  match r with
  | .mode md => f.round md neg m e
  | .sr w =>
    if m = 0 ∨ ltScaled f.top.1 f.top.2 m e then f.round .rne neg m e
    else
      let q := max (topExp m e) f.emin - f.mw
      let n := stochAt w m e q
      (f.signed neg (if q = f.emin - f.mw then n else ((q + f.mw + f.bias).toNat - 1) * 2 ^ f.mw + n),
       (f.round .rne neg m e).2 &&& (nxFl ||| ufFl))

/-! ## Typed elements (R57, R114) -/

/-- An FP32 lane narrowed to an I8 element. The largest finite value, beyond which SR rounds as RNE, is 128 for a negative
lane: the model's choice (R113, log 65). -/
def narrowI8 (r : Rnd) (v : Val) : Nat × Fl :=
  match v with
  | .nan _ => (0, nvFl)
  | .inf n => (if n then 0x80 else 0x7F, satFl ||| nxFl)
  | .fin n m e =>
    let k : Int := (r.at n m e 0 (if n then 128 else 127) 0 : Nat)
    let i := if n then -k else k
    if i < -128 then (0x80, satFl ||| nxFl)
    else if 127 < i then (0x7F, satFl ||| nxFl)
    else (wrapInt 8 i, flIf (!exactAt m e 0) nxFl)

/-- The format of a float window code 1 to 5 (R56). -/
def codeFmt (code : Nat) : Fmt :=
  if code = 1 then fmtF32 else if code = 2 then fmtBF16 else if code = 3 then fmtF16
  else if code = 4 then fmtE4M3 else fmtE5M2

/-- Bytes of an element of a code (R56). -/
def codeSize (code : Nat) : Nat := if code = 1 then 4 else if code ≤ 3 then 2 else 1

/-- An FP32 lane narrowed to an element of code 1 to 5 or 7; F32 stores exactly (R58, R114). -/
def narrow (code : Nat) (r : Rnd) (x : Nat) : Nat × Fl :=
  let v := fmtF32.decode x
  if code = 1 then (x % 2 ^ 32, noFl)
  else if code = 7 then narrowI8 r v
  else
    match v with
    | .fin n m e => (codeFmt code).storeFinite r n m e
    | _ => (codeFmt code).ofVal .rne v

/-- A value as an FP32 lane, NaN canonical and no flag (R114). -/
def widenVal (v : Val) : Nat := (fmtF32.ofVal .rne v).1

/-! ## MX elements (R104, R115) -/

/-- Target of a quantiser. -/
inductive Mx where
  | e4m3
  | e5m2
  | int8
  deriving DecidableEq, Repr

/-- Element format of a float target. -/
def Mx.fmt : Mx → Fmt
  | .e5m2 => fmtE5M2
  | _ => fmtE4M3

/-- emax of R115. -/
def Mx.emax : Mx → Int
  | .e4m3 => 8
  | .e5m2 => 15
  | .int8 => 0

/-- The largest element magnitude M, as m × 2^e; for MXINT8 127 × 2^-6 for both signs, the model's choice (R115,
log 64). -/
def Mx.top : Mx → Nat × Int
  | .int8 => (127, -6)
  | t => t.fmt.top

/-- The value of an element (R104). -/
def Mx.value (t : Mx) (b : Nat) : Val :=
  match t with
  | .int8 => .fin (decide (sextNat 8 b < 0)) (sextNat 8 b).natAbs (-6)
  | _ => t.fmt.decode b

/-- A value times 2 to the k. -/
def Val.scale (k : Int) : Val → Val
  | .fin n m e => .fin n m (e + k)
  | v => v

/-- An element under a scale byte rounded into F32; NaN, and every element under 0xFF, canonical with no flag
(R104, R114, R244). -/
def Mx.widen (t : Mx) (md : Mode) (scale b : Nat) : Nat × Fl :=
  if scale = 0xFF ∨ (t.value b).isNan then (fmtF32.qnan, noFl)
  else fmtF32.ofVal md ((t.value b).scale ((scale : Int) - 127))

/-- A typed element of any window code 1 to 7 as an FP32 lane; an MX element under its scale byte, a free value where the
product lies beyond FP32 (R57, R114, log 63). -/
def widen (code scale b : Nat) : Nat :=
  if code = 1 then (if (fmtF32.decode b).isNan then fmtF32.qnan else b % 2 ^ 32)
  else if code = 7 then widenVal (.fin (decide (sextNat 8 b < 0)) (sextNat 8 b).natAbs 0)
  else if code = 6 then
    (let r := Mx.e4m3.widen .rne scale b
     if r.2 = noFl then r.1 else (Config.beyondF32 scale b).toNat)
  else widenVal ((codeFmt code).decode b)

/-- Quantum of an element of magnitude m × 2^e. -/
def Mx.quantum (t : Mx) (m : Nat) (e : Int) : Int :=
  match t with
  | .int8 => -6
  | _ => max (topExp m e) t.fmt.emin - t.fmt.mw

/-- One finite lane at a scale: its magnitude in units of the quantum, and its flags (R101, R115). -/
def Mx.count (t : Mx) (r : Rnd) (neg : Bool) (m : Nat) (e : Int) : Nat × Fl :=
  if m = 0 then (0, noFl)
  else
    let q := t.quantum m e
    let inexact := !exactAt m e q
    let qu := topExp m e - t.fmt.mw
    let tiny := t != .int8 && ltScaled (roundAt r.plain neg m e qu) qu 1 t.fmt.emin
    (r.at neg m e q t.top.1 t.top.2, flIf inexact nxFl ||| flIf (inexact && tiny) ufFl)

/-- The lane exceeds M at the scale (R115). -/
def Mx.exceeds (t : Mx) (r : Rnd) (neg : Bool) (m : Nat) (e : Int) : Bool :=
  m != 0 && ltScaled t.top.1 t.top.2 (t.count r neg m e).1 (t.quantum m e)

/-- The encoding of ± M. -/
def Mx.maxOf (t : Mx) (neg : Bool) : Nat :=
  match t with
  | .int8 => if neg then 0x81 else 0x7F
  | _ => t.fmt.signed neg t.fmt.maxBits

/-- One lane narrowed at scale exponent x (R115). -/
def Mx.element (t : Mx) (x : Int) (r : Rnd) (v : Val) : Nat × Fl :=
  match v with
  | .nan s => if t = .int8 then (0, nvFl) else (t.fmt.qnan, flIf s nvFl)
  | .inf n => if t = .e5m2 then (fmtE5M2.signed n fmtE5M2.infBits, noFl) else (t.maxOf n, qsatFl)
  | .fin n m e =>
    let (c, fl) := t.count r n m (e - x)
    if t.exceeds r n m (e - x) then (t.maxOf n, fl ||| nxFl ||| qsatFl)
    else if t = .int8 then (wrapInt 8 (if n then -(c : Int) else c), fl)
    else ((t.fmt.round .rne n c (t.quantum m (e - x))).1, fl)

/-- floor(log2 |v|) of a finite nonzero value. -/
def Val.exponent : Val → Option Int
  | .fin _ m e => if m = 0 then none else some (topExp m e)
  | _ => none

/-- The largest exponent of the finite nonzero values. -/
def maxExponent (vs : List Val) : Option Int :=
  vs.foldl (fun a v =>
    match a, v.exponent with
    | some x, some y => some (max x y)
    | none, y => y
    | x, none => x) none

/-- Every finite lane fits at scale exponent x under a mode. -/
def Mx.fits (t : Mx) (md : Mode) (x : Int) (vs : List Val) : Bool :=
  vs.all fun v =>
    match v with
    | .fin n m e => !t.exceeds (.mode md) n m (e - x)
    | _ => true

/-- The scale exponent, raised at most twice and never lowered (R115). -/
def Mx.raise (t : Mx) (md : Mode) (vs : List Val) : Nat → Int → Int
  | 0, x => x
  | n + 1, x => if t.fits md x vs ∨ x = 127 then x else t.raise md vs n (x + 1)

/-- The mode that chooses the scale: the one all elements share, or RNE (R115). -/
def scaleMode : List Rnd → Mode
  | .mode md :: rs => if rs.all fun r => r == .mode md then md else .rne
  | _ => .rne

/-- The scale exponent of lanes (R115). -/
def Mx.scaleOf (t : Mx) (lanes : List (Nat × Rnd)) : Int :=
  let vs := lanes.map fun l => fmtF32.decode l.1
  match maxExponent vs with
  | none => 0
  | some a => t.raise (scaleMode (lanes.map (·.2))) vs 2 (max (-127) (min 127 (a - t.emax)))

/-- Quantises lanes under their own roundings: elements, scale byte and flags (R115). -/
def Mx.quantise (t : Mx) (lanes : List (Nat × Rnd)) : List Nat × Nat × Fl :=
  let x := t.scaleOf lanes
  let es := lanes.map fun l => t.element x l.2 (fmtF32.decode l.1)
  (es.map (·.1), (x + 127).toNat, orFl (es.map (·.2)))

/-! ## GAB blocks (R123 to R125) -/

/-- A GAB, decoded. -/
structure Gab where
  nan : Bool
  pinf : Bool
  ninf : Bool
  ovf : Bool
  lsx : Int
  bexp : Int
  count : Nat
  m : List Int
  deriving DecidableEq, Repr

/-- Decodes 264 bytes. -/
def Gab.read (bs : List Byte) : Gab :=
  let h := recNat 0 4 bs
  { nan := h / 2 ^ 19 % 2 == 1, pinf := h / 2 ^ 20 % 2 == 1, ninf := h / 2 ^ 21 % 2 == 1, ovf := h / 2 ^ 22 % 2 == 1,
    lsx := sextNat 8 (h / 2 ^ 10), bexp := sextNat 10 h, count := recNat 4 4 bs,
    m := (upFrom 0 64).map fun i => sextNat 24 (recNat (8 + 4 * i) 4 bs) }

/-- The 264 bytes of a GAB. -/
def Gab.bytes (g : Gab) : List Byte :=
  bytesOf 4 (wrapInt 10 g.bexp + wrapInt 8 g.lsx * 2 ^ 10 + g.nan.toNat * 2 ^ 19 + g.pinf.toNat * 2 ^ 20 +
    g.ninf.toNat * 2 ^ 21 + g.ovf.toNat * 2 ^ 22) ++ bytesOf 4 g.count ++ g.m.flatMap fun x => bytesOf 4 (wrapInt 32 x)

/-- An integer times 2^e rounded to an integer under RNE, and NX when bits are lost. -/
def rneInt (i : Int) (e : Int) : Int × Fl :=
  (toInt .rne (decide (i < 0)) i.natAbs e, flIf (!exactAt i.natAbs e 0) nxFl)

/-- Raises the block exponent by d, stopping at 511 with ovf (R124). -/
def Gab.realign (g : Gab) (d : Int) : Gab × Fl :=
  let past := decide (511 < g.bexp + d)
  let d := if past then 511 - g.bexp else d
  let ms := g.m.map fun x => rneInt x (-d)
  ({ g with m := ms.map (·.1), bexp := g.bexp + d, ovf := g.ovf || past }, orFl (ms.map (·.2)) ||| flIf past ofFl)

/-- The sum of element i and a contribution y of exponent e fits in 24 bits. -/
def gabFits (x : Int) : Bool := decide (-(2 ^ 23 : Int) ≤ x) && decide (x ≤ 2 ^ 23 - 1)

/-- Adds the signed contribution y × 2^e into element i, halving while the sum is too large (R124); fuel bounds the
halvings. -/
def Gab.settle (i : Nat) (y e : Int) : Nat → Gab → Gab × Fl
  | 0, g => (g, noFl)
  | n + 1, g =>
    let (q, fl) := rneInt y (e + 22 - g.bexp)
    let s := g.m.getD i 0 + q
    if gabFits s then ({ g with m := modifyAt (fun _ => s) g.m i }, fl)
    else if g.bexp = 511 then
      ({ g with m := modifyAt (fun _ => max (-(2 ^ 23 : Int)) (min (2 ^ 23 - 1) s)) g.m i, ovf := true }, fl ||| ofFl)
    else
      let (h, f2) := g.realign 1
      let (z, f3) := Gab.settle i y e n h
      (z, fl ||| f2 ||| f3)

/-- Adds FP32 contribution x under loss scale 2^l into element i (R124). -/
def Gab.add (g : Gab) (i x : Nat) (l : Int) : Gab × Fl :=
  let g := if g.count = 0 then
      { nan := false, pinf := false, ninf := false, ovf := false, lsx := l, bexp := -512, count := 0,
        m := List.replicate 64 0 }
    else g
  let g := { g with count := satInc 32 g.count }
  match fmtF32.decode x with
  | .nan _ => ({ g with nan := true }, noFl)
  | .inf n => ({ g with pinf := g.pinf || !n, ninf := g.ninf || n }, noFl)
  | .fin n m e =>
    let e := e + g.lsx - l
    let y : Int := if n then -(m : Int) else m
    let (h, f1) := if m ≠ 0 ∧ g.bexp < topExp m e then g.realign (topExp m e - g.bexp) else (g, noFl)
    let (z, f2) := Gab.settle i y e 1100 h
    (z, f1 ||| f2)

/-- Adds contributions to consecutive elements from i on (R124, R246). -/
def Gab.addAll (l : Int) : Gab → Nat → List Nat → Gab × Fl
  | g, _, [] => (g, noFl)
  | g, i, x :: xs =>
    let (h, f) := g.add i x l
    let (z, f2) := Gab.addAll l h (i + 1) xs
    (z, f ||| f2)

/-- Rounds element i once (R125). -/
def Gab.value (g : Gab) (md : Mode) (i : Nat) : Nat × Fl :=
  if g.count = 0 then (0, noFl)
  else if g.nan ∨ (g.pinf ∧ g.ninf) then (fmtF32.qnan, nvFl)
  else if g.pinf then (fmtF32.infBits, noFl)
  else if g.ninf then (fmtF32.signed true fmtF32.infBits, noFl)
  else
    let x := g.m.getD i 0
    let (r, fl) := fmtF32.round md (decide (x < 0)) x.natAbs (g.bexp - 22 - g.lsx)
    (r, fl ||| flIf g.ovf ofFl)

/-! ## ABF blocks (R126, R127) -/

/-- An ABF header, decoded. -/
structure Abf where
  count : Nat
  src : Nat
  mis : Bool
  ovf : Bool
  ninf : Bool
  pinf : Bool
  nan : Bool
  exp : Int
  deriving DecidableEq, Repr

/-- Decodes a header. -/
def Abf.read (h : Nat) : Abf :=
  let b := fun i => h / 2 ^ i % 2 == 1
  { count := h / 2 ^ 24 % 2 ^ 40, src := h / 2 ^ 21 % 8, mis := b 20, ovf := b 19, ninf := b 18, pinf := b 17,
    nan := b 16, exp := sextNat 16 h }

/-- The number of a header. -/
def Abf.num (a : Abf) : Nat :=
  a.count * 2 ^ 24 + a.src % 8 * 2 ^ 21 + a.mis.toNat * 2 ^ 20 + a.ovf.toNat * 2 ^ 19 + a.ninf.toNat * 2 ^ 18 +
    a.pinf.toNat * 2 ^ 17 + a.nan.toNat * 2 ^ 16 + wrapInt 16 a.exp

/-- ABF96 or ABF64: bytes of a lane, and F (R126). -/
def abfLane (wide : Bool) : Nat := if wide then 12 else 8
def abfF (wide : Bool) : Int := if wide then 51 else 22
/-- Bytes of a block. -/
def abfSize (wide : Bool) : Nat := 8 + 32 * abfLane wide

/-- Packs one lane at an agreed exponent: the lane, the header flags found, and NX (R249). -/
def abfPack (wide : Bool) (ex : Int) (v : Val) : Int × Abf × Fl :=
  let z : Abf := { count := 1, src := 0, mis := false, ovf := false, ninf := false, pinf := false, nan := false, exp := ex }
  match v with
  | .nan _ => (0, { z with nan := true }, noFl)
  | .inf n => (0, { z with pinf := !n, ninf := n }, noFl)
  | .fin n m e =>
    if m = 0 then (0, z, noFl)
    else if ex < topExp m e then (0, { z with ovf := true }, noFl)
    else
      let (q, fl) := rneInt (if n then -(m : Int) else m) (e + abfF wide - ex)
      (q, z, fl)

/-- ORs the flags of a header into another. -/
def Abf.orFlags (a b : Abf) : Abf :=
  { a with mis := a.mis || b.mis, ovf := a.ovf || b.ovf, ninf := a.ninf || b.ninf, pinf := a.pinf || b.pinf,
           nan := a.nan || b.nan }

/-- Lane j of a block as a signed number. -/
def abfLaneOf (wide : Bool) (bs : List Byte) (j : Nat) : Int :=
  sextNat (8 * abfLane wide) (recNat (8 + abfLane wide * j) (abfLane wide) bs)

/-- The sum of two blocks (R127 step 3, R250). -/
def abfAdd (wide : Bool) (x y : List Byte) : List Byte :=
  let a := Abf.read (recNat 0 8 x)
  let b := Abf.read (recNat 0 8 y)
  let w := 8 * abfLane wide
  let sums := (upFrom 0 32).map fun j => abfLaneOf wide x j + abfLaneOf wide y j
  let past := sums.any fun i => decide (i < intLo w false) || decide (intHi w false < i)
  let h := a.orFlags b
  let h := { h with count := min (a.count + b.count) (2 ^ 40 - 1), mis := h.mis || a.exp != b.exp || a.src != b.src,
                    ovf := h.ovf || past }
  bytesOf 8 h.num ++ sums.flatMap fun i => bytesOf (abfLane wide) (wrapInt w i)

/-- Lane j extracted with the single rounding of the reduction (R127 step 4). -/
def abfExtract (f : Fmt) (md : Mode) (a : Abf) (lane : Int) : Nat × Fl :=
  if a.ovf ∨ a.mis then (f.qnan, nvFl)
  else if a.nan ∨ (a.pinf ∧ a.ninf) then (f.qnan, noFl)
  else if a.pinf then (f.infBits, noFl)
  else if a.ninf then (f.signed true f.infBits, noFl)
  else if a.exp = -32768 then (0, noFl)
  else f.round md (decide (lane < 0)) lane.natAbs (a.exp - abfF (a.src == 0))

end Sys2Proof.Machine
end

