-- ==== Sys2Proof/Machine/Route.lean ====
section
/-! DEFINITION. Routes between physical clusters: the dimension-ordered path, the MC's constructions around a dead
crossing, and the shortest legal path (R19, R377 to R379). A crossing is numbered 24 × y + x over 36 rows; directions
are 0 north, 1 east, 2 south, 3 west. -/

namespace Sys2Proof.Machine

/-- A hop: the crossing it leaves and its direction. -/
abbrev Hop := Nat × Nat

/-- The crossing a street leads to, none at the edge of the grid (R19). -/
def neighbour (c d : Nat) : Option Nat :=
  if d = 0 then (if 24 ≤ c then some (c - 24) else none)
  else if d = 1 then (if c % 24 < 23 then some (c + 1) else none)
  else if d = 2 then (if c < 840 then some (c + 24) else none)
  else (if c % 24 = 0 then none else some (c - 1))

/-- The direction back. -/
def opposite (d : Nat) : Nat := (d + 2) % 4

/-- East and west are X directions. -/
def isX (d : Nat) : Bool := d % 2 == 1

/-- The crossing is dead in the harvest map, or has been recorded dead since (R377, R380, R442). -/
def Mc.dead (m : Mc) (c : Nat) : Bool := fld 25 2 (lookup 0 m.harvest c) == 3 || m.crossings.contains c

/-- The street from a crossing leads to a live one. -/
def Mc.open (m : Mc) (c d : Nat) : Bool :=
  match neighbour c d with
  | some n => !m.dead n
  | none => false

/-- The dimension-ordered direction at c towards t: X first, then Y (R377). -/
def dorDir (c t : Nat) : Option Nat :=
  if c % 24 < t % 24 then some 1
  else if t % 24 < c % 24 then some 3
  else if c / 24 < t / 24 then some 2
  else if t / 24 < c / 24 then some 0
  else none

/-- The dimension-ordered hops from c to t; fuel bounds their number. -/
def dorPath (t : Nat) : Nat → Nat → List Hop
  | 0, _ => []
  | n + 1, c =>
    match dorDir c t with
    | none => []
    | some d =>
      match neighbour c d with
      | some c' => (c, d) :: dorPath t n c'
      | none => []

/-- The hops along given directions from c, as far as the grid reaches. -/
def walkDirs (c : Nat) : List Nat → List Hop × Nat
  | [] => ([], c)
  | d :: ds =>
    match neighbour c d with
    | some c' => let r := walkDirs c' ds; ((c, d) :: r.1, r.2)
    | none => ([], c)

/-- Turning from direction `d0` (none at the source) to d on a channel: the channel the hop is taken on, none where R378
forbids it. -/
def turn (d0 : Option Nat) (vc : Bool) (d : Nat) : Option Bool :=
  match d0 with
  | none => some vc
  | some o =>
    if d = opposite o then none
    else if isX o = false ∧ isX d then (if vc && d == 3 then none else some true)
    else some vc

/-- Whether hops obey R378 and meet no dead crossing, and whether the last is on channel 1. -/
def Mc.legal (m : Mc) : Option Nat → Bool → List Hop → Option Bool
  | _, vc, [] => some vc
  | d0, vc, (c, d) :: hs =>
    if m.open c d then
      match turn d0 vc d with
      | some v => m.legal (some d) v hs
      | none => none
    else none

/-- The construction of R379 at a hop whose next crossing is dead: none where a row or column it needs does not
exist. -/
def Mc.around (m : Mc) (c d t : Nat) : Option (List Hop) :=
  if isX d then
    let side := if m.open c 2 then some 2 else if m.open c 0 then some 0 else none
    match side with
    | none => none
    | some v =>
      match neighbour c v with
      | some c' => some ((c, v) :: dorPath t 64 c')
      | none => none
  else if c % 24 = 0 then none
  else
    let w := walkDirs c [3, d, d, 1]
    if w.1.length = 4 then some (w.1 ++ dorPath t 64 w.2) else none

/-- The dimension-ordered path with the construction at the first dead crossing it meets. -/
def Mc.built (m : Mc) (t : Nat) : List Hop → Option (List Hop)
  | [] => some []
  | (c, d) :: hs => if m.open c d then (m.built t hs).map ((c, d) :: ·) else m.around c d t

/-- Preference at a crossing: the dimension-ordered direction, then south, north, east, west (R379). -/
def preferred (c t : Nat) : List Nat :=
  match dorDir c t with
  | some d => d :: [2, 0, 1, 3].filter (· != d)
  | none => [2, 0, 1, 3]

/-- A packet's place in the search: crossing, direction it came by, channel, and the hops so far, last first. -/
structure Probe where
  at_ : Nat
  came : Option Nat
  vc : Bool
  hops : List Hop
  deriving DecidableEq, Repr

/-- Two probes stand in one place: every continuation of one is one of the other. -/
def Probe.same (p q : Probe) : Bool := p.at_ == q.at_ && p.came == q.came && p.vc == q.vc

/-- The legal continuations of a probe by one hop, in order of preference. -/
def Mc.extend (m : Mc) (t : Nat) (p : Probe) : List Probe :=
  (preferred p.at_ t).filterMap fun d =>
    if m.open p.at_ d then
      match turn p.came p.vc d, neighbour p.at_ d with
      | some v, some c => some { at_ := c, came := some d, vc := v, hops := (p.at_, d) :: p.hops }
      | _, _ => none
    else none

/-- Adds to a frontier, in order, the probes that stand in no place seen before. -/
def addProbes (seen : List Probe) : List Probe → List Probe → List Probe
  | acc, [] => acc.reverse
  | acc, p :: ps =>
    if seen.any p.same || acc.any p.same then addProbes seen acc ps else addProbes seen (p :: acc) ps

/-- The shortest legal path, by levels; fuel bounds its length. -/
def Mc.search (m : Mc) (t : Nat) : Nat → List Probe → List Probe → Option Probe
  | 0, _, _ => none
  | n + 1, seen, front =>
    match front.find? fun p => p.at_ == t with
    | some p => some p
    | none =>
      let next := addProbes seen [] (front.flatMap (m.extend t))
      m.search t n (seen ++ next) next

/-- The path of packets from crossing c to crossing t, and whether it ends on channel 1 (R377 to R379): what the MC's tables
give for the harvest map as it stands. Around one dead crossing the paths of all pairs agree with tables by destination
and arrival direction (R377); where several dead crossings give paths that no such table gives, each pair has the path
of R379, DESIGN CHOICE, log 81. -/
def Mc.route (m : Mc) (c t : Nat) : List Hop × Bool :=
  let dor := dorPath t 64 c
  let found := (m.built t dor).bind fun hs => (m.legal none false hs).map fun v => (hs, v)
  match found with
  | some r => r
  | none =>
    let start : Probe := { at_ := c, came := none, vc := false, hops := [] }
    match m.search t 864 [start] [start] with
    | some p => (p.hops.reverse, p.vc)
    | none => (dor, false)

/-- Hops between the places of two logical columns (R170, R377). -/
def State.hops (s : State) (a b : Nat) : Nat := (s.mc.route (s.place a).1 (s.place b).1).1.length

end Sys2Proof.Machine
end

