-- ==== Sys2Proof/Machine/Inbox.lean ====
section
/-! DEFINITION. Endpoints (R273, R274, R276) and the inbox: its ring, its overflow area and the posting of records
(R277 to R282). -/

namespace Sys2Proof.Machine

/-! ## Endpoints (R273) -/

/-- Fields of an endpoint. -/
def epPart (e : Word) : Nat := fld 38 4 e
def epTgid (e : Word) : Nat := fld 22 16 e
def epRow (e : Word) : Nat := fld 13 6 e
def epX (e : Word) : Nat := fld 8 5 e
def epBlock (e : Word) : Nat := fld 3 5 e
def epCore (e : Word) : Nat := fld 0 3 e

/-- The endpoint of a coordinate laid out as COORD[24:0], in the group of a slot (R273, R274). -/
def Slot.endpointAt (t : Slot) (c : Word) : Word :=
  let row := fld 19 6 c * (fld 13 6 t.sys.tgext + 1) + fld 13 6 c
  word (t.partNo * 2 ^ 38 + t.tgid * 2 ^ 22 + row % 64 * 2 ^ 13 + fld 0 13 c)

/-- A slot's own endpoint (R274). -/
def Slot.endpoint (t : Slot) : Word := t.endpointAt t.sys.coord

/-- A coordinate lies within a slot's group's extents (R28, R274). -/
def Slot.inExtents (t : Slot) (c : Word) : Bool :=
  [(19, 6), (13, 6), (8, 5), (3, 5), (0, 3)].all fun f => fld f.1 f.2 c ≤ fld f.1 f.2 t.sys.tgext

/-- The slot that an endpoint of this device names (R276). -/
def State.slotOfEp (s : State) (e : Word) : Option Nat :=
  (s.slots.find? fun x => x.2.status != .free && fld 0 42 x.2.endpoint == fld 0 42 e).map (·.1)

/-- The logical cluster of an endpoint's task in its partition (R34, R273). -/
def Part.epCluster (p : Part) (e : Word) : Nat := (p.py + epRow e) * 24 + p.px + epX e

/-- The endpoint names a task of a live group that has not started (R276, reason 6). -/
def State.epQueued (s : State) (e : Word) : Bool :=
  match (s.part? (epPart e)).bind fun p => (p.groups.find? fun g => g.tgid == epTgid e).map fun g => (p, g) with
  | some (p, g) =>
    epCore e < g.coresPer && epBlock e < g.blocksPer && epX e < g.width && epRow e < g.rowsPer * g.stages &&
      lookup 0 g.started (p.epCluster e) ≤ epBlock e * g.coresPer + epCore e
  | none => false

/-- The checks of R275 on an endpoint, for the task of a slot. -/
def State.epAllowed (s : State) (t : Slot) (e : Word) : Bool :=
  !(fld 19 3 e != 0 && epTgid e != 0) &&
    (if s.isHere (devField e) then epPart e == t.partNo else inDevMap s.curPart.devmap (devField e))

/-! ## The ring (R277) -/

/-- INBOX fields. -/
def Slot.inboxOn (t : Slot) : Bool := flag 0 t.sys.inbox
/-- Bytes of the ring. -/
def Slot.ringSize (t : Slot) : Nat := 1024 * 2 ^ min 6 (fld 20 3 t.sys.inbox)
/-- Scratchpad offset of the ring; base bits below its alignment are ignored. -/
def Slot.ringBase (t : Slot) : Nat := fld 10 7 t.sys.inbox * 1024 / t.ringSize * t.ringSize
/-- Byte counts of records dequeued and written, modulo twice the ring. -/
def Slot.ringHead (t : Slot) : Nat := fld 30 17 t.sys.inbox % (2 * t.ringSize)
def Slot.ringTail (t : Slot) : Nat := fld 47 17 t.sys.inbox % (2 * t.ringSize)
/-- Bytes from one count up to another. -/
def Slot.ringGap (t : Slot) (hi lo : Nat) : Nat := (hi + 2 * t.ringSize - lo) % (2 * t.ringSize)
/-- Bytes the ring holds. -/
def Slot.ringHeld (t : Slot) : Nat := t.ringGap t.ringTail t.ringHead

/-- Moves a count on. -/
def Slot.ringAdd (t : Slot) (c n : Nat) : Nat := (c + n) % (2 * t.ringSize)

/-- Sets head or tail. -/
def Slot.setHead (t : Slot) (c : Nat) : Slot := t.modSys fun r => { r with inbox := setFld 30 17 c r.inbox }
def Slot.setTail (t : Slot) (c : Nat) : Slot := t.modSys fun r => { r with inbox := setFld 47 17 c r.inbox }

/-- Home key of the ring's byte at a count (R277). -/
def State.ringKey (s : State) (k c : Nat) : Nat :=
  let t := s.slot k
  spadKey (coreOf k) (t.ringBase + c % t.ringSize)

/-- n bytes of the ring from a count. -/
def State.ringBytes (s : State) (k c n : Nat) : List Byte :=
  (upFrom 0 n).map fun i => s.mem.read (s.ringKey k (c + i))

/-- Writes a record at the tail and moves the tail past it; the record stands straight at home, outside every journal
(R162, R278). -/
def State.ringWrite (s : State) (k : Nat) (bs : List Byte) (work : Option Nat) : State :=
  let t := s.slot k
  let c := t.ringTail
  let s := s.homeScatter none ((upFrom 0 bs.length).map fun i => (s.ringKey k (c + i), bs.getD i 0))
  s.modSlot k fun t =>
    let u := t.setTail (t.ringAdd c bs.length)
    { u with works := ((work.map fun g => (c, g)).toList ++ t.works).filter fun w =>
        t.ringGap u.ringTail w.1 ≤ t.ringSize && w.1 != u.ringTail }

/-- Moves spilled records into the ring in their order while it has room (R281); fuel bounds their number. -/
def State.refill (s : State) (k : Nat) : Nat → State
  | 0 => s
  | n + 1 =>
    let t := s.slot k
    match t.spilled with
    | [] => s
    | r :: rs =>
      if r.bytes.length ≤ t.ringSize - t.ringHeld then
        ((s.modSlot k fun t => { t with spilled := rs }).ringWrite k r.bytes r.work).refill k n
      else s

/-- Moves what fits. -/
def State.refillAll (s : State) (k : Nat) : State := s.refill k (s.slot k).spilled.length

/-- Bytes the overflow area holds. -/
def Slot.spillBytes (t : Slot) : Nat := (t.spilled.map fun r => r.bytes.length).sum

/-- A slot's partition is out (R421). -/
def State.isOut (s : State) (k : Nat) : Bool := s.outNow k

/-- Posts a record to a slot (R281, R282): discarded where the inbox is off, into the ring, or into the overflow area,
which a message may fill only as far as 8 KiB stay free; none where there is no room. What would go to the overflow
area of a lost column is gone with it (R433). -/
def State.post (s : State) (k : Nat) (bs : List Byte) (work : Option Nat) (msg : Bool) : Option State :=
  let t := s.slot k
  if t.inboxOn = false then some s
  else if t.spilled = [] ∧ s.isOut k = false ∧ bs.length ≤ t.ringSize - t.ringHeld then some (s.ringWrite k bs work)
  else if s.lost.contains (lcolOf k) then some s
  else if t.spillBytes + bs.length ≤ (if msg then 24576 else 32768) then
    some (s.modSlot k fun t => { t with spilled := t.spilled ++ [{ bytes := bs, work := work }] })
  else none

/-- Rewrites to VOID the kind byte of the records in a slot's ring and overflow area that report a group's work of the
superstep under way (R162). -/
def State.voidWorks (s : State) (k g : Nat) : State :=
  let t := s.slot k
  let mine := (t.works.filter fun w => w.2 == g).map fun w => (s.ringKey k w.1, (0 : Byte))
  (s.homeScatter none mine).modSlot k fun t =>
    { t with works := t.works.filter fun w => w.2 != g,
             spilled := updateIf (fun r => r.work == some g)
               (fun r => { r with bytes := 0 :: r.bytes.drop 1, work := none }) t.spilled }

/-- Records of a group's work stay as they are: its superstep has ended. -/
def Slot.keepWorks (t : Slot) (g : Nat) : Slot :=
  { t with works := t.works.filter fun w => w.2 != g,
           spilled := updateIf (fun r => r.work == some g) (fun r => { r with work := none }) t.spilled }

end Sys2Proof.Machine
end

