-- ==== Sys2Proof/Machine/Transc.lean ====
section
/-! DEFINITION. The seven transcendentals (R121, R122, R229). An evaluation to many bits says which values the bound
admits; which of them is delivered is open, so Config.transcChoice picks it (log 10). -/

namespace Sys2Proof.Machine

/-- The seven functions in the order of their codes (R229). -/
inductive TFn where
  | exp2
  | log2
  | sin
  | cos
  | tanh
  | rcp
  | rsq
  deriving DecidableEq, Repr

/-- The code of a function (R229). -/
def TFn.code : TFn → Nat
  | .exp2 => 0
  | .log2 => 1
  | .sin => 2
  | .cos => 3
  | .tanh => 4
  | .rcp => 5
  | .rsq => 6

/-! ## Series in fixed point: numbers in units of 2 to the minus p -/

/-- Sums the terms that follow one another from t, until one is zero or the fuel ends. -/
def series (next : Nat → Nat → Nat) (part : Nat → Nat → Int) : Nat → Nat → Nat → Int
  | 0, _, _ => 0
  | n + 1, k, t => if t = 0 then 0 else part k t + series next part n (k + 1) (next k t)

/-- A term of an alternating series. -/
def alternating (k : Nat) (t : Nat) : Int := if k % 2 = 0 then (t : Int) else -(t : Int)

/-- arctan (1 / n). -/
def atanInv (p n : Nat) : Int :=
  series (fun _ t => t / (n * n)) (fun k t => alternating k (t / (2 * k + 1))) (p + 1) 0 (2 ^ p / n)

/-- π. -/
def piAt (p : Nat) : Nat := (4 * (4 * atanInv p 5 - atanInv p 239)).toNat

/-- artanh z, for z of at most a third. -/
def atanhAt (p z : Nat) : Nat :=
  (series (fun _ t => t * (z * z / 2 ^ p) / 2 ^ p) (fun k t => ((t / (2 * k + 1) : Nat) : Int)) (p + 1) 0 z).toNat

/-- ln 2. -/
def ln2At (p : Nat) : Nat := 2 * atanhAt p (2 ^ p / 3)

/-- e to the r, for r below 1. -/
def expAt (p r : Nat) : Nat :=
  (series (fun k t => t * r / 2 ^ p / (k + 1)) (fun _ t => (t : Int)) (p + 1) 0 (2 ^ p)).toNat

/-- sin r and cos r, for r below 1. -/
def sinAt (p r : Nat) : Nat :=
  (series (fun k t => t * (r * r / 2 ^ p) / 2 ^ p / ((2 * k + 2) * (2 * k + 3))) alternating (p + 1) 0 r).toNat
def cosAt (p r : Nat) : Nat :=
  (series (fun k t => t * (r * r / 2 ^ p) / 2 ^ p / ((2 * k + 1) * (2 * k + 2))) alternating (p + 1) 0 (2 ^ p)).toNat

/-! ## Evaluations: a sign, a magnitude m × 2^e close to the exact one -/

/-- An evaluation's answer. -/
structure Approx where
  neg : Bool
  m : Nat
  e : Int
  deriving DecidableEq, Repr

/-- Fraction bits that keep 240 bits of a term of the size of the k-th power of a small m × 2^e. -/
def bitsFor (k m : Nat) (e : Int) : Nat := 240 + k * (-(topExp m e)).toNat

/-- m × 2^e in units of 2 to the minus p. -/
def fixedOf (p m : Nat) (e : Int) : Nat := roundAt .rtz false m e (-(p : Int))

/-- 2 to the x. -/
def evalExp2 (neg : Bool) (m : Nat) (e : Int) : Approx :=
  let p := bitsFor 1 m e
  let x : Int := if neg then -(fixedOf p m e : Int) else fixedOf p m e
  let n := x / (2 ^ p : Nat)
  let f := (x - n * (2 ^ p : Nat)).toNat
  ⟨false, expAt p (f * ln2At p / 2 ^ p), n - p⟩

/-- log2 of a positive m × 2^e: the power of two nearest below 1.5 times, and the rest. -/
def evalLog2 (m : Nat) (e : Int) : Approx :=
  let p := 240
  let up := 3 * 2 ^ (Nat.log2 m) ≤ 2 * m
  let k : Int := topExp m e + if up then 1 else 0
  let y := fixedOf p m (e - k)
  let low := decide (y < 2 ^ p)
  let d := if low then 2 ^ p - y else y - 2 ^ p
  let l := 2 * atanhAt p (d * 2 ^ p / (y + 2 ^ p)) * 2 ^ p / ln2At p
  let r : Int := k * (2 ^ p : Nat) + if low then -(l : Int) else l
  ⟨decide (r < 0), r.natAbs, -(p : Int)⟩

/-- The multiple of π/2 nearest |x|, modulo 4, and the rest with its sign, in units of 2 to the minus p. -/
def reduceAngle (p m : Nat) (e : Int) : Nat × Int :=
  let x := fixedOf p m e
  let h := piAt p / 2
  let q := (2 * x + h) / (2 * h)
  (q % 4, (x : Int) - (q * h : Nat))

/-- The sine of q × π/2 + r. -/
def sinQuadrant (p q : Nat) (r : Int) : Approx :=
  let s := sinAt p r.natAbs
  let c := cosAt p r.natAbs
  let neg := decide (r < 0)
  if q % 4 = 0 then ⟨neg, s, -(p : Int)⟩
  else if q % 4 = 1 then ⟨false, c, -(p : Int)⟩
  else if q % 4 = 2 then ⟨!neg, s, -(p : Int)⟩
  else ⟨true, c, -(p : Int)⟩

/-- sin x, a sixth of its cube short of a small x, and cos x, half a square short of 1. -/
def evalSin (neg : Bool) (m : Nat) (e : Int) : Approx :=
  let p := bitsFor 3 m e + (topExp m e).toNat + 16
  let (q, r) := reduceAngle p m e
  let a := sinQuadrant p q r
  { a with neg := a.neg != neg }
def evalCos (m : Nat) (e : Int) : Approx :=
  let p := bitsFor 2 m e + (topExp m e).toNat + 16
  let (q, r) := reduceAngle p m e
  sinQuadrant p (q + 1) r

/-- tanh x, from e to the 2x; beyond 32 it lies between 1 and its neighbours in every format. -/
def evalTanh (neg : Bool) (m : Nat) (e : Int) : Approx :=
  if 5 ≤ topExp m e then ⟨neg, 2 ^ 240 - 1, -240⟩
  else
    let p := bitsFor 3 m e
    let x := 2 * fixedOf p m e
    let k := x / ln2At p
    let z := expAt p (x - k * ln2At p) * 2 ^ k
    ⟨neg, (z - 2 ^ p) * 2 ^ p / (z + 2 ^ p), -(p : Int)⟩

/-- 1 / x. -/
def evalRcp (neg : Bool) (m : Nat) (e : Int) : Approx :=
  let s := bitLen m + 240
  ⟨neg, 2 ^ s / m, -e - s⟩

/-- 1 / √x of a positive x. -/
def evalRsq (m : Nat) (e : Int) : Approx :=
  let m2 := if e % 2 = 0 then m else 2 * m
  let e2 := if e % 2 = 0 then e else e - 1
  let s := bitLen m2 + 240
  ⟨false, isqrt (2 ^ (2 * s) / m2), -(e2 / 2) - s⟩

/-- The evaluation of a function at a finite nonzero argument in its range. -/
def TFn.eval (fn : TFn) (neg : Bool) (m : Nat) (e : Int) : Approx :=
  match fn with
  | .exp2 => evalExp2 neg m e
  | .log2 => evalLog2 m e
  | .sin => evalSin neg m e
  | .cos => evalCos m e
  | .tanh => evalTanh neg m e
  | .rcp => evalRcp neg m e
  | .rsq => evalRsq m e

/-! ## The delivered value -/

/-- Twice the bound in units of the last place (R121). -/
def TFn.bound2 (fn : TFn) (t : Nat) : Nat :=
  match fn with
  | .tanh => 4
  | .sin | .cos => if t = 1 then 3 else 2
  | _ => 2

/-- The finite value with magnitude bits b lies within the bound of the exact result (R9, R121). The evaluation stands for
it: it keeps so many bits that both lie on one side of every multiple of half a unit. -/
def Fmt.admits (f : Fmt) (bound2 : Nat) (a : Approx) (b : Nat) : Bool :=
  match f.decode b with
  | .fin _ vm ve =>
    let u : Int := max (topExp a.m a.e) f.emin - f.mw
    let lo := min (min ve a.e) (u - 1)
    let v : Int := (vm * 2 ^ (ve - lo).toNat : Nat)
    let y : Int := (a.m * 2 ^ (a.e - lo).toNat : Nat)
    decide ((v - y).natAbs ≤ bound2 * 2 ^ (u - 1 - lo).toNat)
  | _ => false

/-- One of the values the bound admits: that which the choice names where it is admitted, else the neighbour of
smaller magnitude. -/
def Fmt.chosen (f : Fmt) (bound2 choice : Nat) (a : Approx) : Nat :=
  let z := (f.round .rtz false a.m a.e).1
  let b := z + choice % 8 - 4
  if 4 ≤ z + choice % 8 ∧ b ≤ f.maxBits ∧ f.admits bound2 a b then b else z

/-- Overflow and underflow of EXP2 and RCP follow RNE (R122). -/
def TFn.followsRne (fn : TFn) (fl : Fl) : Bool := (fn == .exp2 || fn == .rcp) && (fl &&& (ofFl ||| ufFl)) != 0

/-- An inexact result. Whether it is tiny is tested on the evaluation under RNE, DESIGN CHOICE for SIN, COS, TANH, LOG2 and
RSQ, which have no rounding mode of their own (R101, R122, log 96). -/
def Fmt.transcOpen (f : Fmt) (t : Nat) (fn : TFn) (bits : Nat) (a : Approx) : Nat × Fl :=
  let (r, fl) := f.round .rne a.neg a.m a.e
  if fn.followsRne fl then (r, fl ||| nxFl)
  else (f.signed a.neg (f.chosen (fn.bound2 t) (Config.transcChoice fn.code t bits) a), (fl &&& ufFl) ||| nxFl)

/-- The exact results for a zero or an infinity (R122). -/
def TFn.atZero (f : Fmt) (fn : TFn) (neg : Bool) : Nat × Fl :=
  let one := (f.round .rne false 1 0).1
  match fn with
  | .exp2 | .cos => (one, noFl)
  | .log2 => (f.signed true f.infBits, dzFl)
  | .sin | .tanh => (f.signed neg 0, noFl)
  | .rcp | .rsq => (f.signed neg f.infBits, dzFl)
def TFn.atInf (f : Fmt) (fn : TFn) (neg : Bool) : Nat × Fl :=
  let one := (f.round .rne false 1 0).1
  match fn with
  | .exp2 => (if neg then 0 else f.infBits, noFl)
  | .log2 => if neg then f.nanOut true else (f.infBits, noFl)
  | .sin | .cos => f.nanOut true
  | .tanh => (f.signed neg one, noFl)
  | .rcp => (f.signed neg 0, noFl)
  | .rsq => if neg then f.nanOut true else (0, noFl)

/-- The whole exponent of a power of two. -/
def pow2Of (m : Nat) (e : Int) : Option Int := if m = 2 ^ Nat.log2 m then some (topExp m e) else none

/-- The integer an argument is, when it is one. -/
def integerOf (neg : Bool) (m : Nat) (e : Int) : Option Int :=
  if exactAt m e 0 then
    (let n : Int := (roundAt .rtz false m (min e 20) 0 : Nat)
     some (if neg then -n else n))
  else none

/-- A finite nonzero argument (R121, R122): exact cases first, then the value chosen under the bound. F32 SIN and COS
beyond 2^20 give any value in [−1, 1], one below the smallest normal with UF (R101). -/
def TFn.atFinite (f : Fmt) (t : Nat) (fn : TFn) (bits : Nat) (neg : Bool) (m : Nat) (e : Int) : Nat × Fl :=
  match fn with
  | .exp2 =>
    match integerOf neg m e with
    | some n => f.round .rne false 1 (max (-16384) (min 16384 n))
    | none => if 14 ≤ topExp m e then f.round .rne false 3 (if neg then -16384 else 16384)
              else f.transcOpen t fn bits (fn.eval neg m e)
  | .log2 =>
    if neg then f.nanOut true
    else
      match pow2Of m e with
      | some n => f.round .rne (decide (n < 0)) n.natAbs 0
      | none => f.transcOpen t fn bits (fn.eval neg m e)
  | .rcp =>
    match pow2Of m e with
    | some n => f.round .rne neg 1 (-n)
    | none => f.transcOpen t fn bits (fn.eval neg m e)
  | .rsq =>
    if neg then f.nanOut true
    else
      match pow2Of m e with
      | some n => if n % 2 = 0 then f.round .rne false 1 (-(n / 2)) else f.transcOpen t fn bits (fn.eval neg m e)
      | none => f.transcOpen t fn bits (fn.eval neg m e)
  | .sin | .cos =>
    if t = 1 ∧ ltScaled 1 20 m e then
      (let c := Config.transcChoice fn.code t bits
       let b := c / 2 % ((f.round .rne false 1 0).1 + 1)
       (f.signed (c % 2 == 1) b, nxFl ||| flIf (0 < b && b < 2 ^ f.mw) ufFl))
    else f.transcOpen t fn bits (fn.eval neg m e)
  | .tanh => f.transcOpen t fn bits (fn.eval neg m e)

/-- A function in F64 (type code 0) or F32 (type code 1). -/
def TFn.direct (t : Nat) (fn : TFn) (bits : Nat) : Nat × Fl :=
  let f := fmtOf t
  match f.decode bits with
  | .nan s => f.nanOut s
  | .inf n => fn.atInf f n
  | .fin n m e => if m = 0 then fn.atZero f n else fn.atFinite f t (bits % 2 ^ f.width) n m e

/-- A nonzero finite value is tiny in a format under RNE (R101). -/
def Fmt.isTiny (f : Fmt) : Val → Bool
  | .fin _ m e => m != 0 && ltScaled (roundAt .rne false m e (topExp m e - f.mw)) (topExp m e - f.mw) 1 f.emin
  | _ => false

/-- A function in a type: F16 and BF16 evaluate in F32 and round once under RNE (R121); a tiny result that is inexact in either
step underflows (R101, R106). -/
def TFn.apply (t : Nat) (fn : TFn) (bits : Nat) : Nat × Fl :=
  if t < 2 then fn.direct t bits
  else
    let f := fmtOf t
    let (w, a) := fmtF32.ofVal .rne (f.decode bits)
    let (r, b) := fn.direct 1 w
    let (z, c) := f.ofVal .rne (fmtF32.decode r)
    let fl := a ||| b ||| c
    (z, fl ||| flIf (fl &&& nxFl != 0 && f.isTiny (fmtF32.decode r)) ufFl)

end Sys2Proof.Machine
end

