-- ==== Sys2Proof/Machine/FloatScalar.lean ====
section
/-! DEFINITION. The scalar floating-point majors 0x10 to 0x1B (R220 to R229). -/

namespace Sys2Proof.Machine

/-! ## Shared shapes -/

/-- Latency of FADD, FSUB, FMUL and FFMA (R189). -/
def arithLat (t : FTy) : Nat := if t = 0 then 6 else 4

/-- Latency of FDIV, FSQRT and the transcendentals (R189). -/
def longLat (t : FTy) : Nat := if t = 0 then 20 else 12

/-- The format of a scalar type code (R182). -/
def tyOf (t : FTy) : Fmt := fmtOf t.toNat

/-- The mode of an rm field (R105). -/
def rmOf (rm : Rm) : Mode := modeOf rm.toNat

/-- Puts a floating-point result and its flags in flight (R109, R221). -/
def State.setF (s : State) (lat : Nat) (d : SReg) (r : Nat × Fl) : Result :=
  .next ((s.setS lat d (word r.1)).setFlags lat r.2)

/-- A result of two operands. -/
def State.fop2 (s : State) (lat : Nat) (f : Nat → Nat → Nat × Fl) (d a b : SReg) : Result :=
  s.setF lat d (f (s.rs a).toNat (s.rs b).toNat)

/-- A result of one operand. -/
def State.fop1 (s : State) (lat : Nat) (f : Nat → Nat × Fl) (d a : SReg) : Result :=
  s.setF lat d (f (s.rs a).toNat)

/-- A comparison into a predicate (R225). -/
def State.fcmpTo (s : State) (t : FTy) (c : FCond) (d : PReg) (a b : SReg) : Result :=
  let r := (tyOf t).cmp c (s.rs a).toNat (s.rs b).toNat
  .next ((s.setP 4 d r.1).setFlags 4 r.2)

/-- The bits below the sign of a type, and the sign bit (R228). -/
def Fmt.magnitude (f : Fmt) (a : Nat) : Nat := a % f.signBit

/-! ## Arithmetic (R223) -/

/-- FADD (R223). -/
def execFadd (t : FTy) (d a b : SReg) (rm : Rm) (s : State) : Result := s.fop2 (arithLat t) ((tyOf t).add (rmOf rm)) d a b
/-- FSUB (R223). -/
def execFsub (t : FTy) (d a b : SReg) (rm : Rm) (s : State) : Result := s.fop2 (arithLat t) ((tyOf t).sub (rmOf rm)) d a b
/-- FMUL (R223). -/
def execFmul (t : FTy) (d a b : SReg) (rm : Rm) (s : State) : Result := s.fop2 (arithLat t) ((tyOf t).mul (rmOf rm)) d a b
/-- FFMA reads sd in the issue cycle (R223). -/
def execFfma (t : FTy) (d a b : SReg) (rm : Rm) (s : State) : Result :=
  s.fop2 (arithLat t) (fun x y => (tyOf t).fma (rmOf rm) x y (s.rs d).toNat) d a b
/-- FDIV (R120, R223). -/
def execFdiv (t : FTy) (d a b : SReg) (rm : Rm) (s : State) : Result := s.fop2 (longLat t) ((tyOf t).div (rmOf rm)) d a b
/-- FSQRT (R120, R223). -/
def execFsqrt (t : FTy) (d a : SReg) (rm : Rm) (s : State) : Result := s.fop1 (longLat t) ((tyOf t).sqrt (rmOf rm)) d a

/-! ## Minimum, maximum, comparison (R224, R225) -/

/-- FMIN (R224). -/
def execFmin (t : FTy) (d a b : SReg) (s : State) : Result := s.fop2 4 ((tyOf t).minmax false) d a b
/-- FMAX (R224). -/
def execFmax (t : FTy) (d a b : SReg) (s : State) : Result := s.fop2 4 ((tyOf t).minmax true) d a b
/-- FMINN (R224). -/
def execFminn (t : FTy) (d a b : SReg) (s : State) : Result := s.fop2 4 ((tyOf t).minmaxNum false) d a b
/-- FMAXN (R224). -/
def execFmaxn (t : FTy) (d a b : SReg) (s : State) : Result := s.fop2 4 ((tyOf t).minmaxNum true) d a b
/-- FCMP.EQ (R225). -/
def execFcmpEq (t : FTy) (d : PReg) (a b : SReg) (s : State) : Result := s.fcmpTo t .eq d a b
/-- FCMP.NE (R225). -/
def execFcmpNe (t : FTy) (d : PReg) (a b : SReg) (s : State) : Result := s.fcmpTo t .ne d a b
/-- FCMP.LT (R225). -/
def execFcmpLt (t : FTy) (d : PReg) (a b : SReg) (s : State) : Result := s.fcmpTo t .lt d a b
/-- FCMP.LE (R225). -/
def execFcmpLe (t : FTy) (d : PReg) (a b : SReg) (s : State) : Result := s.fcmpTo t .le d a b
/-- FCMP.UN (R225). -/
def execFcmpUn (t : FTy) (d : PReg) (a b : SReg) (s : State) : Result := s.fcmpTo t .un d a b
/-- FCMP.ORD (R225). -/
def execFcmpOrd (t : FTy) (d : PReg) (a b : SReg) (s : State) : Result := s.fcmpTo t .ord d a b

/-! ## Conversions, classes and sign bits (R226 to R228) -/

/-- The bits of a converted value as sd holds them: integers extended to 64 bits (R226). -/
def cvtWord (t : VTy) (u : Bool) (bits : Nat) : Word :=
  if t.toNat < 4 ∨ u then word bits else sextWord (intWidth t.toNat) bits

/-- FCVT in its signed and unsigned forms (R226). -/
def State.convertTo (s : State) (u : Bool) (t src : VTy) (d a : SReg) (rm : Rm) : Result :=
  let r := convert (rmOf rm) u t.toNat src.toNat (s.rs a).toNat
  .next ((s.setS 4 d (cvtWord t u r.1)).setFlags 4 r.2)

/-- FCVT (R226). -/
def execFcvt (t src : VTy) (d a : SReg) (rm : Rm) (s : State) : Result := s.convertTo false t src d a rm
/-- FCVTU (R226). -/
def execFcvtu (t src : VTy) (d a : SReg) (rm : Rm) (s : State) : Result := s.convertTo true t src d a rm
/-- FCLASS (R227). -/
def execFclass (t : FTy) (d a : SReg) (s : State) : Result := s.fop1 4 (fun x => (2 ^ (tyOf t).classOf x, noFl)) d a
/-- FABS (R228). -/
def execFabs (t : FTy) (d a : SReg) (s : State) : Result := s.fop1 4 (fun x => ((tyOf t).magnitude x, noFl)) d a
/-- FNEG (R228). -/
def execFneg (t : FTy) (d a : SReg) (s : State) : Result :=
  s.fop1 4 (fun x => ((tyOf t).signed (!(tyOf t).neg x) ((tyOf t).magnitude x), noFl)) d a
/-- FCPSGN (R228). -/
def execFcpsgn (t : FTy) (d a b : SReg) (s : State) : Result :=
  s.fop2 4 (fun x y => ((tyOf t).signed ((tyOf t).neg y) ((tyOf t).magnitude x), noFl)) d a b

/-! ## Transcendentals (R121, R122, R229) -/

/-- EXP2 (R229). -/
def execExp2 (t : FTy) (d a : SReg) (s : State) : Result := s.fop1 (longLat t) (TFn.exp2.apply t.toNat) d a
/-- LOG2 (R229). -/
def execLog2 (t : FTy) (d a : SReg) (s : State) : Result := s.fop1 (longLat t) (TFn.log2.apply t.toNat) d a
/-- SIN (R229). -/
def execSin (t : FTy) (d a : SReg) (s : State) : Result := s.fop1 (longLat t) (TFn.sin.apply t.toNat) d a
/-- COS (R229). -/
def execCos (t : FTy) (d a : SReg) (s : State) : Result := s.fop1 (longLat t) (TFn.cos.apply t.toNat) d a
/-- TANH (R229). -/
def execTanh (t : FTy) (d a : SReg) (s : State) : Result := s.fop1 (longLat t) (TFn.tanh.apply t.toNat) d a
/-- RCP (R229). -/
def execRcp (t : FTy) (d a : SReg) (s : State) : Result := s.fop1 (longLat t) (TFn.rcp.apply t.toNat) d a
/-- RSQ (R229). -/
def execRsq (t : FTy) (d a : SReg) (s : State) : Result := s.fop1 (longLat t) (TFn.rsq.apply t.toNat) d a

end Sys2Proof.Machine
end

