-- ==== Sys2Proof/Machine/Vector.lean ====
section
/-! DEFINITION. The lane-wise vector majors 0x20 to 0x2D (R230 to R240). -/

namespace Sys2Proof.Machine

/-! ## Lanes -/

/-- The lanes of a vector in a type, lane 0 first (R186). -/
def vlanes (t : Nat) (v : Vec) : List Nat := lanesOf (laneWidth t) (laneCount t) v.toNat

/-- The vector of lanes in a type. -/
def vecOf (t : Nat) (ls : List Nat) : Vec := BitVec.ofNat 512 (ofLanes (laneWidth t) ls)

/-- An operation on two lanes, with flags. -/
abbrev Lane2 := Nat → Nat → Nat × Fl

/-- Lanes of a vector result and their flags in flight. -/
def State.setLanes (s : State) (lat t : Nat) (d : VReg) (rs : List (Nat × Fl)) : Result :=
  .next ((s.setV lat d (vecOf t (rs.map (·.1)))).setFlags lat (orFl (rs.map (·.2))))

/-- A lane-wise result of two vectors. -/
def State.lane2 (s : State) (lat t : Nat) (f : Lane2) (d a b : VReg) : Result :=
  s.setLanes lat t d (((vlanes t (s.rv a)).zip (vlanes t (s.rv b))).map fun p => f p.1 p.2)

/-- A lane-wise result of three vectors. -/
def State.lane3 (s : State) (lat t : Nat) (f : Nat → Nat → Nat → Nat × Fl) (d a b c : VReg) : Result :=
  s.setLanes lat t d
    (((vlanes t (s.rv a)).zip ((vlanes t (s.rv b)).zip (vlanes t (s.rv c)))).map fun p => f p.1 p.2.1 p.2.2)

/-- A lane-wise result of one vector. -/
def State.lane1 (s : State) (lat t : Nat) (f : Nat → Nat × Fl) (d a : VReg) : Result :=
  s.setLanes lat t d ((vlanes t (s.rv a)).map f)

/-- A lane operation by type: floats by the format, integers modulo 2^w with no flag (R230). -/
def laneOp (t : Nat) (f : Fmt → Lane2) (g : Nat → Nat → Nat → Nat) : Lane2 := fun x y =>
  if t < 4 then f (fmtOf t) x y else (g (laneWidth t) x y, noFl)

/-- Latency of vector arithmetic (R189, R222). -/
def vecLat (t : VTy) : Nat := if t = 0 then 6 else 4

/-! ## Integer lanes of w bits -/

def laneAdd (w x y : Nat) : Nat := (x + y) % 2 ^ w
def laneSub (w x y : Nat) : Nat := (x + 2 ^ w - y % 2 ^ w) % 2 ^ w
def laneMul (w x y : Nat) : Nat := x * y % 2 ^ w
def laneMin (w x y : Nat) : Nat := if sextNat w x ≤ sextNat w y then x else y
def laneMax (w x y : Nat) : Nat := if sextNat w x ≤ sextNat w y then y else x

/-- Adds two lanes of any type: the SUM of R238. -/
def addOf (t : Nat) (rm : Rm) : Lane2 := laneOp t (fun f => f.add (rmOf rm)) laneAdd
/-- The minimum and maximum of two lanes of any type (R231). -/
def minOf (t : Nat) : Lane2 := laneOp t (fun f => f.minmax false) laneMin
def maxOf (t : Nat) : Lane2 := laneOp t (fun f => f.minmax true) laneMax

/-! ## Arithmetic (R230, R231) -/

/-- VADD (R230). -/
def execVadd (t : VTy) (d a b : VReg) (rm : Rm) (s : State) : Result := s.lane2 (vecLat t) t.toNat (addOf t.toNat rm) d a b
/-- VSUB (R230). -/
def execVsub (t : VTy) (d a b : VReg) (rm : Rm) (s : State) : Result :=
  s.lane2 (vecLat t) t.toNat (laneOp t.toNat (fun f => f.sub (rmOf rm)) laneSub) d a b
/-- VMUL (R230). -/
def execVmul (t : VTy) (d a b : VReg) (rm : Rm) (s : State) : Result :=
  s.lane2 (vecLat t) t.toNat (laneOp t.toNat (fun f => f.mul (rmOf rm)) laneMul) d a b
/-- VFMA (R230). -/
def execVfma (t : VTy) (d a b : VReg) (rm : Rm) (s : State) : Result :=
  s.lane3 (vecLat t) t.toNat (fun x y z =>
    if t.toNat < 4 then (fmtOf t.toNat).fma (rmOf rm) x y z
    else (laneAdd (laneWidth t.toNat) (laneMul (laneWidth t.toNat) x y) z, noFl)) d a b d
/-- VMIN (R231). -/
def execVmin (t : VTy) (d a b : VReg) (s : State) : Result := s.lane2 4 t.toNat (minOf t.toNat) d a b
/-- VMAX (R231). -/
def execVmax (t : VTy) (d a b : VReg) (s : State) : Result := s.lane2 4 t.toNat (maxOf t.toNat) d a b

/-! ## Logic and shifts (R232, R233) -/

/-- A bitwise result of two vectors. -/
def State.vlogic (s : State) (f : Vec → Vec → Vec) (d a b : VReg) : Result := .next (s.setV 4 d (f (s.rv a) (s.rv b)))

/-- VAND (R232). -/
def execVand (d a b : VReg) (s : State) : Result := s.vlogic (fun x y => x &&& y) d a b
/-- VOR (R232). -/
def execVor (d a b : VReg) (s : State) : Result := s.vlogic (fun x y => x ||| y) d a b
/-- VXOR (R232). -/
def execVxor (d a b : VReg) (s : State) : Result := s.vlogic (fun x y => x ^^^ y) d a b
/-- VANDN (R232). -/
def execVandn (d a b : VReg) (s : State) : Result := s.vlogic (fun x y => x &&& ~~~ y) d a b
/-- VORN (R232). -/
def execVorn (d a b : VReg) (s : State) : Result := s.vlogic (fun x y => x ||| ~~~ y) d a b
/-- VXNOR (R232). -/
def execVxnor (d a b : VReg) (s : State) : Result := s.vlogic (fun x y => ~~~ (x ^^^ y)) d a b

/-- Integer type code of a shift's lanes: 4 + t (R233). -/
def shiftTy (t : BitVec 2) : Nat := 4 + t.toNat

/-- Shifts of a lane of w bits by a count below w (R198, R233). -/
def laneShl (w x n : Nat) : Nat := x * 2 ^ n % 2 ^ w
def laneShr (_w x n : Nat) : Nat := x / 2 ^ n
def laneSra (w x n : Nat) : Nat := wrapInt w (sextNat w x / (2 ^ n : Nat))
def laneRol (w x n : Nat) : Nat := x * 2 ^ n % 2 ^ w + x / 2 ^ (w - n)

/-- A lane-wise shift; the count is the lane's low log2(w) bits (R233). -/
def State.vshift (s : State) (f : Nat → Nat → Nat → Nat) (t : BitVec 2) (d a b : VReg) : Result :=
  s.lane2 4 (shiftTy t) (fun x y => (f (laneWidth (shiftTy t)) x (y % laneWidth (shiftTy t)), noFl)) d a b

/-- VSHL (R233). -/
def execVshl (t : BitVec 2) (d a b : VReg) (s : State) : Result := s.vshift laneShl t d a b
/-- VSHR (R233). -/
def execVshr (t : BitVec 2) (d a b : VReg) (s : State) : Result := s.vshift laneShr t d a b
/-- VSRA (R233). -/
def execVsra (t : BitVec 2) (d a b : VReg) (s : State) : Result := s.vshift laneSra t d a b
/-- VROL (R233). -/
def execVrol (t : BitVec 2) (d a b : VReg) (s : State) : Result := s.vshift laneRol t d a b

/-! ## Comparison and selection (R234, R235) -/

/-- All ones of a lane, or zero. -/
def laneMask (w : Nat) (b : Bool) : Nat := if b then 2 ^ w - 1 else 0

/-- A lane-wise comparison: floats by R225, integers by a relation on the lane's width (R234). -/
def State.vcompare (s : State) (c : FCond) (g : Nat → Nat → Nat → Bool) (t : VTy) (d a b : VReg) : Result :=
  let w := laneWidth t.toNat
  s.lane2 4 t.toNat (fun x y =>
    if t.toNat < 4 then
      (let r := (fmtOf t.toNat).cmp c x y
       (laneMask w r.1, r.2))
    else (laneMask w (g w x y), noFl)) d a b

/-- VCMP.Eq (R234). -/
def execVcmpEq (t : VTy) (d a b : VReg) (s : State) : Result := s.vcompare .eq (fun _w x y => x == y) t d a b
/-- VCMP.Ne (R234). -/
def execVcmpNe (t : VTy) (d a b : VReg) (s : State) : Result := s.vcompare .ne (fun _w x y => x != y) t d a b
/-- VCMP.Lt (R234). -/
def execVcmpLt (t : VTy) (d a b : VReg) (s : State) : Result := s.vcompare .lt (fun w x y => decide (sextNat w x < sextNat w y)) t d a b
/-- VCMP.Le (R234). -/
def execVcmpLe (t : VTy) (d a b : VReg) (s : State) : Result := s.vcompare .le (fun w x y => decide (sextNat w x ≤ sextNat w y)) t d a b
/-- VCMP.UnLtu (R234). -/
def execVcmpUnLtu (t : VTy) (d a b : VReg) (s : State) : Result := s.vcompare .un (fun _w x y => decide (x < y)) t d a b
/-- VCMP.OrdLeu (R234). -/
def execVcmpOrdLeu (t : VTy) (d a b : VReg) (s : State) : Result := s.vcompare .ord (fun _w x y => decide (x ≤ y)) t d a b

/-- VSEL: vd's own lane bits choose (R235). -/
def execVsel (t : VTy) (d a b : VReg) (s : State) : Result :=
  s.lane3 4 t.toNat (fun x y z => (if z ≠ 0 then x else y, noFl)) d a b d

/-! ## Conversion (R236) -/

/-- Replaces lanes from place n on. -/
def putLanes (old new : List Nat) (n : Nat) : List Nat := old.take n ++ new ++ old.drop (n + new.length)

/-- VCVT in its signed and unsigned forms: part p of the wider side (R236). -/
def State.vconvert (s : State) (u : Bool) (t src : VTy) (q : BitVec 3) (d a : VReg) (rm : Rm) : Result :=
  let lat := if t = 0 ∨ src = 0 then 6 else 4
  let lt := laneCount t.toNat
  let ls := laneCount src.toNat
  let p := q.toNat % (max ls lt / min ls lt)
  let source := vlanes src.toNat (s.rv a)
  let part := if lt ≤ ls then (source.drop (p * lt)).take lt else source
  let rs := part.map (convert (rmOf rm) u t.toNat src.toNat)
  let out := if lt ≤ ls then rs.map (·.1) else putLanes (vlanes t.toNat (s.rv d)) (rs.map (·.1)) (p * ls)
  .next ((s.setV lat d (vecOf t.toNat out)).setFlags lat (orFl (rs.map (·.2))))

/-- VCVT (R236). -/
def execVcvt (t src : VTy) (q : BitVec 3) (d a : VReg) (rm : Rm) (s : State) : Result := s.vconvert false t src q d a rm
/-- VCVTU (R236). -/
def execVcvtu (t src : VTy) (q : BitVec 3) (d a : VReg) (rm : Rm) (s : State) : Result := s.vconvert true t src q d a rm

/-! ## Transcendentals (R237) -/

/-- VEXP2 (R237). -/
def execVexp2 (t : FTy) (d a : VReg) (s : State) : Result := s.lane1 (longLat t) t.toNat (TFn.exp2.apply t.toNat) d a
/-- VLOG2 (R237). -/
def execVlog2 (t : FTy) (d a : VReg) (s : State) : Result := s.lane1 (longLat t) t.toNat (TFn.log2.apply t.toNat) d a
/-- VSIN (R237). -/
def execVsin (t : FTy) (d a : VReg) (s : State) : Result := s.lane1 (longLat t) t.toNat (TFn.sin.apply t.toNat) d a
/-- VCOS (R237). -/
def execVcos (t : FTy) (d a : VReg) (s : State) : Result := s.lane1 (longLat t) t.toNat (TFn.cos.apply t.toNat) d a
/-- VTANH (R237). -/
def execVtanh (t : FTy) (d a : VReg) (s : State) : Result := s.lane1 (longLat t) t.toNat (TFn.tanh.apply t.toNat) d a
/-- VRCP (R237). -/
def execVrcp (t : FTy) (d a : VReg) (s : State) : Result := s.lane1 (longLat t) t.toNat (TFn.rcp.apply t.toNat) d a
/-- VRSQ (R237). -/
def execVrsq (t : FTy) (d a : VReg) (s : State) : Result := s.lane1 (longLat t) t.toNat (TFn.rsq.apply t.toNat) d a

/-! ## Reduction (R238) -/

/-- One level of the tree. -/
def pairUp (f : Lane2) : List Nat → List (Nat × Fl)
  | x :: y :: l => f x y :: pairUp f l
  | _ => []

/-- The pairwise tree over 2^n lanes: its value and flags. -/
def treeOf (f : Lane2) : Nat → List Nat → Nat × Fl
  | 0, ls => (ls.headD 0, noFl)
  | n + 1, ls =>
    let up := pairUp f ls
    let r := treeOf f n (up.map (·.1))
    (r.1, r.2 ||| orFl (up.map (·.2)))

/-- VRED: lane 0 takes the tree's value, the other lanes 0. -/
def State.reduce (s : State) (f : Lane2) (t : VTy) (d a : VReg) : Result :=
  s.setLanes 8 t.toNat d [treeOf f (Nat.log2 (laneCount t.toNat)) (vlanes t.toNat (s.rv a))]

/-- VRED.SUM (R238). -/
def execVredSum (t : VTy) (d a : VReg) (rm : Rm) (s : State) : Result := s.reduce (addOf t.toNat rm) t d a
/-- VRED.MIN (R238). -/
def execVredMin (t : VTy) (d a : VReg) (s : State) : Result := s.reduce (minOf t.toNat) t d a
/-- VRED.MAX (R238). -/
def execVredMax (t : VTy) (d a : VReg) (s : State) : Result := s.reduce (maxOf t.toNat) t d a

/-! ## Movement (R239, R240) -/

/-- VSHUF (R239). -/
def execVshuf (t : VTy) (d a b : VReg) (s : State) : Result :=
  let l := laneCount t.toNat
  let table := vlanes t.toNat (s.rv a) ++ vlanes t.toNat (s.rv d)
  .next (s.setV 4 d (vecOf t.toNat ((vlanes t.toNat (s.rv b)).map fun j => table.getD (j % (2 * l)) 0)))

/-- VBCAST (R240). -/
def execVbcast (t : VTy) (d : VReg) (a : SReg) (s : State) : Result :=
  .next (s.setV 4 d (vecOf t.toNat (List.replicate (laneCount t.toNat) (s.rs a).toNat)))

/-- VINS (R240). -/
def execVins (t : VTy) (d : VReg) (a b : SReg) (s : State) : Result :=
  .next (s.setV 4 d (vecOf t.toNat (modifyAt (fun _ => (s.rs a).toNat) (vlanes t.toNat (s.rv d))
    ((s.rs b).toNat % laneCount t.toNat))))

/-- A lane as a scalar: integers sign-extended (R240). -/
def laneWord (t : Nat) (x : Nat) : Word := if t < 4 then word x else sextWord (laneWidth t) x

/-- VEXT (R240). -/
def execVext (t : VTy) (d : SReg) (a : VReg) (b : SReg) (s : State) : Result :=
  .next (s.setS 4 d (laneWord t.toNat ((vlanes t.toNat (s.rv a)).getD ((s.rs b).toNat % laneCount t.toNat) 0)))

end Sys2Proof.Machine
end

