-- ==== Sys2Proof/Machine/LoadStore.lean ====
section
/-! DEFINITION. Scalar and vector loads and stores, and PREF (R252 to R262, R270), over one operation for the answer of
a home and one for appending a store. -/

namespace Sys2Proof.Machine

/-! ## Answers of homes -/

/-- What a home answers an access. -/
inductive Answer where
  /-- the home key, the format code and rounding of the window or page, and the walk of a page -/
  | at (key fmt rnd : Nat) (walk : Option Walk)
  /-- another device's memory (R54) -/
  | device
  /-- a lost column's memory, or a column that has no place (R433, R437) -/
  | lost (key : Nat)
  | trap (code detail : Nat)
  | stall
  deriving DecidableEq, Repr

/-- Rounding field of window w (R58). -/
def State.windowRnd (s : State) (w : Nat) : Nat := fld (2 * w) 2 s.me.sys.wincfg

/-- The answer of a page; an access waits behind those that wait at its channel (R444). -/
def State.pageAnswer (s : State) (va : Word) (kind : Kind) : Answer :=
  if s.behind s.cur va then .stall
  else
    match s.translate s.myPart s.curPart va kind with
    | .ok key leaf lk lv ns => .at key (pteFmt leaf) (pteRnd leaf) (some (.ok key leaf lk lv ns))
    | .page level node => .trap 0x05 (level + if node then 16 else 0)
    | .prot => .trap 0x04 0
    | .mig => .stall

/-- The draw by which another device answers an access (log 67). -/
def State.deviceDraw (s : State) (va : Word) : Nat :=
  (Config.freeByte (s.fresh * 2 ^ 64 + 2 ^ 63 + va.toNat % 2 ^ 42)).toNat

/-- The answer of another device's home, which its own maps and tables decide and this model does not hold: the access
performs, or ends in PROT or in PAGE at some level (R54, R55, log 67). -/
def State.deviceAnswer (s : State) (va : Word) : Answer :=
  let b := s.deviceDraw va
  if b % 4 = 1 then .trap 0x04 0
  else if b % 4 = 2 then .trap 0x05 (1 + b / 4 % 3 + if b / 16 % 2 = 1 then 16 else 0)
  else .device

/-- The state in which the draw of a refused access to a target is used up. -/
def State.past (s : State) : Target → State
  | .device _ => { s with fresh := s.fresh + 1 }
  | _ => s

/-- The answer to an access of n bytes at a decoded address (R254 step 5). A query asks pages only. -/
def State.answer (s : State) (va : Word) (t : Target) (n : Nat) (kind : Kind) : Answer :=
  match t with
  | .spad core w o =>
    if s.mc.unplaced.contains (core / 8) then .lost (spadKey core o)
    else if core = coreOf s.cur ∨ kind = .query ∨ s.permitsOthers core kind.remoteBits o n then
      .at (spadKey core o) w (s.windowRnd w) none
    else .trap 0x04 0
  | .col lcol o => if s.lost.contains lcol then .lost (colKey lcol o) else s.pageAnswer va kind
  | .hbm => s.pageAnswer va kind
  | .device _ => s.deviceAnswer va

/-- n free bytes, and the state in which the draw is used up (log 11). -/
def State.freeBytes (s : State) (n : Nat) : List Byte × State :=
  ((upFrom 0 n).map fun i => Config.freeByte (s.fresh * 2 ^ 64 + i), { s with fresh := s.fresh + 1 })

/-- The A and D bits of an access that performs through a page (R410). -/
def State.usedPage (s : State) (va : Word) (kind : Kind) (w : Option Walk) : State :=
  match w with
  | some w => s.usePage s.myPart va kind w
  | none => s

/-- Another device's home may answer an access that performs with poison (R54, R159, log 67): a state after it, marked so. -/
def State.markDevice (s : State) (va : Word) (u : State) : State :=
  if s.deviceDraw va / 32 % 2 = 1 then u.setChk s.cur 1 else u

/-- The bytes a shared load of n bytes takes, and the state it leaves (R81, R255). -/
def State.takeShared (s : State) (va : Word) (n : Nat) (a : Answer) : List Byte × State :=
  match a with
  | .at key _ _ w =>
    let ks := upFrom key n
    let bs := ks.map fun k => s.sharedByte s.cur k (va + word (k - key))
    let bad := ks.any fun k => s.sharedBad s.cur k (va + word (k - key))
    let s := (s.usedPage va .load w).touchView s.cur key
    (bs, if bad then s.setChk s.cur 1 else s)
  | .lost key =>
    let ks := upFrom key n
    let bs := ks.map fun k => s.sharedByte s.cur k (va + word (k - key))
    let bad := ks.any fun k => s.sharedBad s.cur k (va + word (k - key))
    let home := ks.any fun k => (s.logOrView s.cur k (va + word (k - key))).isNone
    let s := s.touchView s.cur key
    let s := if bad then s.setChk s.cur 1 else s
    (bs, if home then { s.metLost va with fresh := s.fresh + 1 } else s)
  | .device => ((s.freeBytes n).1, s.markDevice va (s.freeBytes n).2)
  | _ => ([], s)

/-! ## Scalar loads and stores (R257) -/

/-- The value of a loaded number of n bytes. -/
def loadedWord (n : Nat) (u : Bool) (x : Nat) : Word := if n = 8 ∨ u then word x else sextWord (8 * n) x

/-- LD and LDX. -/
def State.loadScalar (s : State) (d : SReg) (va : Word) (n : Nat) (u : Bool) : Result :=
  match s.myTarget va with
  | none => s.prot va
  | some t =>
    if va.toNat % n ≠ 0 then s.align va
    else
      match t, s.isLocal t with
      | .spad _ _ o, true =>
        if s.me.permits [3] o n then
          .next ((((s.consume (spadKey (coreOf s.cur) o) n).countAccess).stallFor [o]).setS 4 d (loadedWord n u (s.spadNum o n)))
        else s.prot va
      | _, _ =>
        match s.answer va t n .load with
        | .trap code detail => (s.past t).raise code detail va
        | .stall => .next (s.sleepAt va)
        | a =>
          let (bs, s) := s.takeShared va n a
          .next (s.countAccess.answerS d (loadedWord n u (leNat bs)))

/-- Appends stores to the issuing slot's log, all or none (R74, R256): their bytes also go into its view lines (R81),
they leave the core two cycles later (R192), and the pressure of R78 acts. -/
def State.appendStores (s : State) (ns : List NewEntry) : Option State :=
  if ns = [] then some s
  else
    match s.me.log.append s.me.group s.me.ordinal ns with
    | none => none
    | some l =>
      let new := l.entries.drop s.me.log.entries.length
      let s := s.modMe fun t => { t with log := l }
      let s := new.foldl (fun s e => (s.forwardToView s.cur e).result 3 (.sent e.seq)) s
      some (s.pressure s.cur)

/-- ST and STX. -/
def State.storeScalar (s : State) (d : SReg) (va : Word) (n : Nat) : Result :=
  let bs := bytesOf n (s.rs d).toNat
  match s.myTarget va with
  | none | some (.device _) => s.prot va
  | some t =>
    if va.toNat % n ≠ 0 then s.align va
    else
      match t, s.isLocal t with
      | .spad _ _ o, true =>
        if s.me.permits [4] o n then .next (((s.spadWrite o bs).countAccess).stallFor [o]) else s.prot va
      | _, _ =>
        let cells := (upFrom 0 n).map fun i => (va + word i, bs.getD i 0)
        match s.appendStores [{ cells := cells, big := false, raw := false }] with
        | some s => .next s.countAccess
        | none => .next (s.hold .logRoom)

/-- LD (R257). -/
def execLd (d a : SReg) (sz : BitVec 2) (u : Bool) (imm : BitVec 9) (s : State) : Result :=
  s.loadScalar d (effAddr (s.rs a) (scaledImm imm (sizeOf sz))) (sizeOf sz) u
/-- LDX (R257). -/
def execLdx (d a b : SReg) (sz : BitVec 2) (u sc : Bool) (s : State) : Result :=
  s.loadScalar d (effAddr (s.rs a) (scaledIndex (s.rs b) sc (sizeOf sz))) (sizeOf sz) u
/-- ST (R257). -/
def execSt (d a : SReg) (sz : BitVec 2) (imm : BitVec 9) (s : State) : Result :=
  s.storeScalar d (effAddr (s.rs a) (scaledImm imm (sizeOf sz))) (sizeOf sz)
/-- STX (R257). -/
def execStx (d a b : SReg) (sz : BitVec 2) (sc : Bool) (s : State) : Result :=
  s.storeScalar d (effAddr (s.rs a) (scaledIndex (s.rs b) sc (sizeOf sz))) (sizeOf sz)

/-! ## Elements of vector accesses (R254, R258, R260, R261) -/

/-- An element: its address and where that leads. -/
structure Element where
  va : Word
  tgt : Target
  deriving DecidableEq, Repr

/-- Bytes of an element of a class; a whole RAW VLD or VST is one element of 64 bytes (R252, R260). -/
def classSize (cls : BitVec 2) : Nat := if cls = 0 then 4 else if cls = 1 then 2 else if cls = 2 then 1 else 64

/-- Element addresses of VLD and VST (R260). -/
def wholeElems (base : Word) (cls : BitVec 2) (imm : BitVec 9) : List Word :=
  let ea := effAddr base (scaledImm imm 16)
  if cls = 3 then [ea] else (upFrom 0 16).map fun i => effAddr ea (word (i * classSize cls))

/-- Bytes of a strided or gathered element (R261). -/
def laneSize (q : Bool) (cls : BitVec 2) : Nat := if q then 8 else if cls = 3 then 4 else classSize cls

/-- Element addresses of VLDS and VSTS (R261). -/
def strideElems (base stride : Word) (q : Bool) : List Word :=
  (upFrom 0 (if q then 8 else 16)).map fun i => effAddr base (word i * stride)

/-- Element addresses of VGATH and VSCAT (R261). -/
def gatherElems (base : Word) (offs : Vec) (q : Bool) : List Word :=
  (vlanes (if q then 4 else 5) offs).map fun x => effAddr base (sextWord (if q then 64 else 32) x)

/-- The class accepts a window code or page FMT (R258). -/
def accepts (cls : BitVec 2) (code : Nat) : Bool :=
  if cls = 0 then code == 1
  else if cls = 1 then code == 2 || code == 3
  else if cls = 2 then 4 ≤ code && code ≤ 7
  else code == 0 || 8 ≤ code

/-- The space an element decodes to: local windows, HBM space, on-wafer space, or another device (R254). -/
def spaceOf (e : Element) : Nat :=
  if region e.va then 2
  else match e.tgt with
    | .spad _ _ _ => 0
    | .hbm => 1
    | _ => 3

/-- Step 2 for the elements in lane order: decoding, one space, no typed access through another core's window 6, and no
store to another device (R54, R63, R254). -/
def State.decodeElems (s : State) (cls : BitVec 2) (kind : Kind) : Option Nat → List Word → Check (List Element)
  | _, [] => .ok []
  | space, va :: vas =>
    match s.myTarget va with
    | none => .error (0x04, 0, va)
    | some t =>
      let e : Element := { va := va, tgt := t }
      let far : Bool := match t with
        | .device _ => kind == .store
        | _ => false
      let mx := cls != 3 && windowCode va == some 6 && !s.isLocal t
      if far ∨ mx ∨ (space.isSome ∧ space ≠ some (spaceOf e)) then .error (0x04, 0, va)
      else (s.decodeElems cls kind (some (spaceOf e)) vas).map fun es => e :: es

/-- The window an element goes through, as local or not and its number. -/
def State.windowOf (s : State) (e : Element) : Option (Bool × Nat) :=
  match e.tgt with
  | .spad _ w _ => some (s.isLocal e.tgt, w)
  | .device _ => (windowCode e.va).map fun w => (false, w)
  | _ => none

/-- Step 3 for the elements in lane order: alignment, class, and one window (R66, R67, R254, R258). Windows are compared
by their numbers: the elements of one access may reach same-numbered windows of several remote cores
(DESIGN CHOICE, log 94). -/
def State.alignElems (s : State) (cls : BitVec 2) (n : Nat) (els : List Element) : List Element → Check Unit
  | [] => .ok ()
  | e :: es =>
    let bad : Bool := match s.windowOf e with
      | some (loc, w) => !accepts cls w ||
          ((els.findSome? fun x => (s.windowOf x).filter fun y => y.1 == loc).map (·.2)) != some w
      | none => false
    if e.va.toNat % n ≠ 0 ∨ bad then .error (0x03, 0, e.va) else s.alignElems cls n els es

/-- Offset in the own scratchpad of the scale byte of an MX element (R59). -/
def State.scaleAt (s : State) (va : Word) : Nat := (fld 0 17 s.me.sys.mxscale + fld 5 12 va) % 0x20000

/-- Step 4 for the elements in lane order: the slot's regions for local bytes, the scale byte of an element in an MX window
among them, which ends in PROT at the element (R59, R65, R254; log 25). -/
def State.regionElems (s : State) (cls : BitVec 2) (n : Nat) (kind : Kind) : List Element → Check Unit
  | [] => .ok ()
  | e :: es =>
    let bad : Bool := match e.tgt with
      | .spad _ w o => s.isLocal e.tgt && (!s.me.permits kind.localBits o n ||
          (cls != 3 && w == 6 && !s.me.permits kind.localBits (s.scaleAt e.va) 1))
      | _ => false
    if bad then .error (0x04, 0, e.va) else s.regionElems cls n kind es

/-- Steps 2 to 4 for all elements, each step over every lane before the next (R254). -/
def State.checkElems (s : State) (cls : BitVec 2) (n : Nat) (kind : Kind) (vas : List Word) : Check (List Element) := do
  let es ← s.decodeElems cls kind none vas
  s.alignElems cls n es es
  s.regionElems cls n kind es
  .ok es

/-- Every element is local. -/
def State.allLocal (s : State) (es : List Element) : Bool := es.all fun e => s.isLocal e.tgt

/-- Scratchpad offsets of the local elements. -/
def State.localOffsets (s : State) (es : List Element) : List Nat :=
  es.filterMap fun e => match e.tgt with
    | .spad _ _ o => if s.isLocal e.tgt then some o else none
    | _ => none

/-- The answers to the elements in lane order: the first that refuses or stalls decides; a page whose FMT the class
refuses raises ALIGN (R258). -/
inductive Answers where
  | all (as : List Answer)
  | trap (code detail : Nat) (va : Word)
  | stall (va : Word)
  deriving DecidableEq, Repr

/-- The region bits for the scale byte of an element of an MX page: a load reads it, a store, which asks its pages first,
writes it (R59, R65; log 25). -/
def Kind.scaleBits : Kind → List Nat
  | .query => [4]
  | k => k.localBits

/-- Asks for the elements' answers; whether a page of another device refuses the class is free (log 67), and the scale byte
of an element of an MX page must be granted (R65; log 25). -/
def State.askElems (s : State) (cls : BitVec 2) (n : Nat) (kind : Kind) : List Element → Answers
  | [] => .all []
  | e :: es =>
    match s.answer e.va e.tgt n kind with
    | .trap code detail => .trap code detail e.va
    | .stall => .stall e.va
    | a =>
      let wrong := match a with
        | .at _ fmt _ (some _) => !accepts cls fmt
        | .device => (windowCode e.va).isNone && s.deviceDraw e.va % 4 == 3
        | _ => false
      let scale : Bool := match a with
        | .at _ fmt _ (some _) => cls != 3 && fmt == 6 && !s.me.permits kind.scaleBits (s.scaleAt e.va) 1
        | _ => false
      if wrong then .trap 0x03 0 e.va
      else if scale then .trap 0x04 0 e.va
      else
        match s.askElems cls n kind es with
        | .all as => .all (a :: as)
        | r => r

/-! ## Vector loads -/

/-- The format of an answered element: its window's or page's, and of another device's scratchpad, or one of a column that
has no place, the window's that its address names; none where it is another device's page, or was a lost column's (R62,
R63, R258). -/
def formatOf (e : Element) : Answer → Option Nat
  | .at _ code _ _ => some code
  | .device | .lost _ => windowCode e.va
  | _ => none

/-- A typed element as an FP32 lane; where its format is unknown to the core, the lane is free (R57, R59, log 11). -/
def State.widenElem (s : State) (e : Element) (a : Answer) (bs : List Byte) : Nat :=
  match formatOf e a with
  | some code => widen code (s.spadNum (s.scaleAt e.va) 1) (leNat bs)
  | none => leNat bs % 2 ^ 32

/-- Offsets of the scale bytes that answered MX elements use, for a class (R59). -/
def State.scaleOffsets (s : State) (cls : BitVec 2) (els : List (Element × Answer)) : List Nat :=
  if cls = 3 then []
  else (els.filter fun x => formatOf x.1 x.2 == some 6).map fun x => s.scaleAt x.1.va

/-- Bytes taken of each element, in lane order; a typed element whose format is unknown takes a lane's four. -/
def State.takeElems (s : State) (cls : BitVec 2) (n : Nat) : List (Element × Answer) → List (List Byte) × State
  | [] => ([], s)
  | (e, a) :: l =>
    let (bs, s) :=
      match e.tgt, s.isLocal e.tgt with
      | .spad _ _ o, true => (s.spadBytes o n, s.consume (spadKey (coreOf s.cur) o) n)
      | _, _ =>
        s.takeShared e.va (if cls = 3 ∨ (formatOf e a).isSome then n else 4) a
    let (r, s) := State.takeElems s cls n l
    (bs :: r, s)

/-- The vector that loaded elements make. -/
def State.loadedVec (s : State) (cls : BitVec 2) (els : List (Element × Answer)) (bs : List (List Byte)) : Vec :=
  if cls = 3 then BitVec.ofNat 512 (leNat bs.flatten)
  else vecOf 1 ((els.zip bs).map fun x => s.widenElem x.1.1 x.1.2 x.2)

/-- VLD, VLDS and VGATH: local elements alone land at 4; with a shared element the slot sleeps until all have landed
(R255). -/
def State.loadVector (s : State) (d : VReg) (cls : BitVec 2) (n : Nat) (vas : List Word) : Result :=
  s.orTrap (s.checkElems cls n .load vas) fun es =>
    match s.askElems cls n .load es with
    | .trap code detail va => (es.foldl (fun s e => s.past e.tgt) s).raise code detail va
    | .stall va => .next (s.sleepAt va)
    | .all as =>
      let (bs, t) := State.takeElems s cls n (es.zip as)
      let v := s.loadedVec cls (es.zip as) bs
      let scales := s.scaleOffsets cls (es.zip as)
      let t := scales.foldl (fun t o => t.consume (spadKey (coreOf s.cur) o) 1) t
      let t := (t.countAccess).stallFor (s.localOffsets es ++ scales)
      if s.allLocal es then .next (t.setV 4 d v) else .next ((t.setV 2 d v).answerAfter)

/-! ## Vector stores -/

/-- The rounding of an element's RND code, with the random word of R111 for SR (R58, R113). -/
def State.elemRnd (s : State) (va : Word) (rnd : Nat) : Rnd :=
  let g := if s.me.svc then 0 else (lookup Bar.reset s.curPart.bars s.me.bgrp).gen
  if rnd = 0 then .mode .rne else if rnd = 1 then .mode .rtz else if rnd = 3 then .mode .rna
  else .sr (storeWord s.me.sys.winseed va g s.me.stoch)

/-- What a typed store makes of its lanes: bytes of each element, scale bytes to write, flags, and whether the
stochastic-store counter moves (R57, R59, R111, R114, R115). -/
structure Narrowed where
  bytes : List (List Byte)
  scales : List (Nat × Byte)
  flags : Fl
  stochastic : Bool
  deriving DecidableEq, Repr

/-- Code and rounding of an answered element; of a column that has no place the window's that its address names. A lost
column's memory takes its bytes without effect, and the codes of F32 and RNE stand in for its page's (R63, R258). -/
def State.codeOf (s : State) (e : Element) : Answer → Nat × Nat
  | .at _ code rnd _ => (code, rnd)
  | .lost _ =>
    match windowCode e.va with
    | some w => (w, s.windowRnd w)
    | none => (1, 0)
  | _ => (1, 0)

/-- Narrows the lanes of a typed store of elements of n bytes. -/
def State.narrowLanes (s : State) (n : Nat) (els : List (Element × Answer)) (v : Vec) : Narrowed :=
  let xs := (els.zip (vlanes 1 v)).map fun x =>
    (x.1.1.va, (s.codeOf x.1.1 x.1.2).1, s.elemRnd x.1.1.va (s.codeOf x.1.1 x.1.2).2, x.2)
  let e := Mx.e4m3.scaleOf (xs.map fun x => (x.2.2.2, x.2.2.1))
  let out := xs.map fun x =>
    if x.2.1 = 6 then Mx.e4m3.element e x.2.2.1 (fmtF32.decode x.2.2.2) else narrow x.2.1 x.2.2.1 x.2.2.2
  { bytes := out.map fun r => bytesOf n r.1,
    scales := ((xs.filter fun x => x.2.1 == 6).map fun x => (s.scaleAt x.1, BitVec.ofNat 8 (e + 127).toNat)).eraseDups,
    flags := orFl (out.map (·.2)),
    stochastic := xs.any fun x => x.2.1 != 1 && (match x.2.2.1 with
      | .sr _ => true
      | .mode _ => false) }

/-- Consecutive cells of equal keys, keys in the order of their first cell. -/
def groupBy (key : Word → Nat) (cells : List (Word × Byte)) : List (List (Word × Byte)) :=
  ((cells.map fun c => key c.1).eraseDups).map fun k => cells.filter fun c => key c.1 == k

/-- The entries of a vector store: one for each home its bytes fall in, or for each line a scatter touches (R256). -/
def entriesOf (byLine raw : Bool) (cells : List (Word × Byte)) : List NewEntry :=
  (groupBy (fun va => if byLine then va.toNat / 64 else if region va then 0 else va.toNat / 2 ^ 16) cells).map fun c =>
    { cells := c, big := true, raw := raw }

/-- Performs a checked vector store whose bytes are known; the scale bytes are written last, DESIGN CHOICE, since the spec
does not say which byte stays where one falls among the elements (R59, R256, R259, R262, log 68). -/
def State.performStore (s : State) (els : List Element) (byLine raw : Bool) (x : Narrowed) : Result :=
  let cellsOf := fun (p : Element × List Byte) => (upFrom 0 p.2.length).map fun i => (p.1.va + word i, p.2.getD i 0)
  let shared := ((els.zip x.bytes).filter fun p => !s.isLocal p.1.tgt).flatMap cellsOf
  let own := ((els.zip x.bytes).filterMap fun p =>
    match p.1.tgt with
    | .spad core _ o => if s.isLocal p.1.tgt then some (spadKey core o, p.2) else none
    | _ => none).flatMap fun p => (upFrom 0 p.2.length).map fun i => (p.1 + i, p.2.getD i 0)
  match s.appendStores (entriesOf byLine raw shared) with
  | none => .next (s.hold .logRoom)
  | some t =>
    let t := t.homeScatter (t.writerOf t.cur) own
    let t := x.scales.foldl (fun t c => t.spadWrite c.1 [c.2]) t
    let t := (t.countAccess).stallFor (s.localOffsets els ++ x.scales.map (·.1))
    .next ((t.modMe fun u => { u with stoch := if x.stochastic then (u.stoch + 1) % 2 ^ 32 else u.stoch }).setFlags 1
      x.flags)

/-- Bytes of RAW elements of n bytes. -/
def rawBytes (n k : Nat) (v : Vec) : List (List Byte) := (upFrom 0 k).map fun i => bytesOf n (v.toNat / 2 ^ (8 * n * i))

/-- VST, VSTS and VSCAT. A typed store that meets a page asks it first, and then the slot has slept (R259). -/
def State.storeVector (s : State) (d : VReg) (cls : BitVec 2) (n : Nat) (byLine : Bool) (vas : List Word) : Result :=
  s.orTrap (s.checkElems cls n .store vas) fun es =>
    if cls = 3 then
      s.performStore es byLine true
        { bytes := rawBytes n vas.length (s.rv d), scales := [], flags := noFl, stochastic := false }
    else
      match s.askElems cls n .query es with
      | .trap code detail va => s.raise code detail va
      | .stall va => .next (s.sleepAt va)
      | .all as =>
        let asked := es.any fun e => match e.tgt with
          | .spad _ _ _ => false
          | _ => true
        match s.performStore es byLine false (s.narrowLanes n (es.zip as) (s.rv d)) with
        | .next t => .next (if asked ∧ t.flow = s.flow then t.answerAfter else t)
        | o => o

/-- VLD (R260). -/
def execVld (d : VReg) (a : SReg) (cls : BitVec 2) (imm : BitVec 9) (s : State) : Result :=
  s.loadVector d cls (classSize cls) (wholeElems (s.rs a) cls imm)
/-- VST (R260). -/
def execVst (d : VReg) (a : SReg) (cls : BitVec 2) (imm : BitVec 9) (s : State) : Result :=
  s.storeVector d cls (classSize cls) false (wholeElems (s.rs a) cls imm)
/-- VLDS (R261). -/
def execVlds (d : VReg) (a b : SReg) (q : Bool) (cls : BitVec 2) (s : State) : Result :=
  s.loadVector d cls (laneSize q cls) (strideElems (s.rs a) (s.rs b) q)
/-- VSTS (R261). -/
def execVsts (d : VReg) (a b : SReg) (q : Bool) (cls : BitVec 2) (s : State) : Result :=
  s.storeVector d cls (laneSize q cls) true (strideElems (s.rs a) (s.rs b) q)
/-- VGATH (R261). -/
def execVgath (d : VReg) (a : SReg) (b : VReg) (q : Bool) (cls : BitVec 2) (s : State) : Result :=
  s.loadVector d cls (laneSize q cls) (gatherElems (s.rs a) (s.rv b) q)
/-- VSCAT (R261). -/
def execVscat (d : VReg) (a : SReg) (b : VReg) (q : Bool) (cls : BitVec 2) (s : State) : Result :=
  s.storeVector d cls (laneSize q cls) true (gatherElems (s.rs a) (s.rv b) q)

/-! ## Prefetch (R270) -/

/-- Counts dropped hints of the issuing slot (R336, R414). -/
def State.dropHint (s : State) : State := s.result 1 .dropped

/-- PREF: never traps and changes no value; a hint that is refused or not mapped is counted (R270, R414). -/
def execPref (a : SReg) (imm : BitVec 14) (s : State) : Result :=
  let va := effAddr (s.rs a) (simm imm)
  match s.myTarget va with
  | none | some (.device _) => .next s.dropHint
  | some (.spad _ _ _) => .next s
  | some _ =>
    match s.pageAnswer va .hint with
    | .at _ _ _ _ => .next s
    | _ => .next s.dropHint

end Sys2Proof.Machine
end

