-- ==== Sys2Proof/Machine/Engine.lean ====
section
/-! DEFINITION. How the engines of a partition reach memory: straight to home, through pages, with remote checks in
scratchpads (R94, R129, R147, R153, R315), and the sorting they share. -/

namespace Sys2Proof.Machine

/-- The flag byte of a record: barrier group, charged, and the low bits given (R288, R289, R314, R328). -/
def workFlags (group : Option Nat) (charged : Bool) (rest : Nat) : Nat :=
  (if charged then group.getD 0 * 16 + 2 else 0) + rest

/-- What CPYQ, MPOLL and the like answer for a number the counter has not reached within 2^31 (R291). -/
def notIssued (counter id : Nat) : Bool := id == 0 || 2 ^ 31 ≤ gap 32 counter id

/-- One end of a 32-byte piece of a copy, or of an engine's access. -/
inductive PieceEnd where
  /-- a home key, and the walk of a page -/
  | at (key : Nat) (walk : Option Walk)
  /-- another device -/
  | far
  /-- the fault code of R289 -/
  | fault (code : Nat)
  | stall
  deriving DecidableEq, Repr

/-- The end behind a page. -/
def pieceAt : Walk → PieceEnd
  | .ok key leaf lk lv ns => .at key (some (.ok key leaf lk lv ns))
  | .page _ _ => .fault 0x01
  | .prot => .fault 0x02
  | .mig => .stall

/-- What an engine works on: the state, whether it has read poison, the addresses it has read through pages, and the lost
columns it met. -/
structure EngState where
  st : State
  bad : Bool
  reads : List Word
  gone : List Nat
  deriving DecidableEq, Repr

/-- Work of an engine: it may end in a fault code (1 PAGE, 2 PROT, 3 BADTILE, 4 LOST), or stall on a migrating page. -/
abbrev Eng := ExceptT (Option Nat) (StateM EngState)

/-- Ends in a fault. -/
def Eng.fail {α : Type} (code : Nat) : Eng α := throw (some code)

/-- Ends in a fault unless a condition holds. -/
def Eng.require (b : Bool) (code : Nat) : Eng Unit := if b then pure () else Eng.fail code

/-- An address an engine may follow: HBM space or on-wafer space of this device (R129). -/
def State.engineAddr (s : State) (va : Word) : Bool := s.isHere (devField va) && (region va || 0x100000 ≤ offset va)

/-- Where n bytes at an address of a partition lie for an engine. -/
def State.engineEnd (s : State) (pn : Nat) (va : Word) (n : Nat) (kind : Kind) : PieceEnd :=
  match s.part? pn with
  | none => .fault 2
  | some p =>
    if s.engineAddr va = false then .fault 2
    else
      match s.target p 0 va with
      | some (.spad core _ o) =>
        if s.mc.unplaced.contains (core / 8) then .fault 4
        else if s.permitsOthers core kind.remoteBits o n then .at (spadKey core o) none else .fault 2
      | some (.col lcol _) => if s.lost.contains lcol then .fault 4 else pieceAt (s.translate pn p va kind)
      | some .hbm => pieceAt (s.translate pn p va kind)
      | _ => .fault 2

/-- What an access that performs leaves to the engine: page bits, poison read, the page it read through. -/
def EngState.took (e : EngState) (pn : Nat) (va : Word) (n : Nat) (kind : Kind) (k : Nat) (w : Option Walk) : EngState :=
  let s := match w with
    | some w => e.st.usePage pn va kind w
    | none => e.st
  { e with st := s, bad := e.bad || (kind != .store && e.st.anyPoison k n),
           reads := if kind == .load && w.isSome then va :: e.reads else e.reads }

/-- The home key of n bytes inside one page, its bits used. -/
def Eng.key (pn : Nat) (va : Word) (n : Nat) (kind : Kind) : Eng Nat :=
  ExceptT.mk fun e =>
    match e.st.engineEnd pn va n kind with
    | .at k w => pure (.ok k, e.took pn va n kind k w)
    | .fault c => pure (.error (some c), if c = 4 then { e with gone := [offset va / 2 ^ 26] } else e)
    | .far => pure (.error (some 2), e)
    | .stall => pure (.error none, e)

/-- A range cut at page ends: none for no bytes, and at most two pieces for the sizes engines use. -/
def pieces (va : Word) (n : Nat) : List (Word × Nat) :=
  let m := min n (65536 - va.toNat % 65536)
  if n = 0 then [] else if m < n then [(va, m), (va + word m, n - m)] else [(va, n)]

/-- Reads n bytes at home for an access of a kind. -/
def Eng.readAs (kind : Kind) (pn : Nat) (va : Word) (n : Nat) : Eng (List Byte) := do
  let parts ← (pieces va n).mapM fun p => do
    let k ← Eng.key pn p.1 p.2 kind
    let e ← get
    pure (e.st.homeBytes k p.2)
  pure parts.flatten

/-- Reads n bytes at home. -/
def Eng.read (pn : Nat) (va : Word) (n : Nat) : Eng (List Byte) := Eng.readAs .load pn va n

/-- Reads a number of n bytes. -/
def Eng.num (pn : Nat) (va : Word) (n : Nat) : Eng Nat := do
  let bs ← Eng.read pn va n
  pure (leNat bs)

/-- Writes bytes at home under a journal, or none. -/
def Eng.write (pn : Nat) (who : Option Writer) (va : Word) (bs : List Byte) (kind : Kind := Kind.store) : Eng Unit := do
  let _ ← (pieces va bs.length).mapM fun p => do
    let k ← Eng.key pn p.1 p.2 kind
    modify fun e => { e with st := e.st.homeWrite who k ((bs.drop (p.1 - va).toNat).take p.2) }
  pure ()

/-- The pages of accesses that performed have their A bits, whatever became of the work (R410). -/
def State.accessed (s : State) (pn : Nat) (vas : List Word) : State :=
  match s.part? pn with
  | none => s
  | some p => vas.foldr (fun va s => s.usePage pn va .load (s.translate pn p va .load)) s

/-- Runs an engine's work for a partition on a state; where it ends in a fault or stalls, with the state as it was but
for what its reads leave (R410). -/
def State.engine {α : Type} (s : State) (pn : Nat) (f : Eng α) : Except (Option Nat × State) (α × EngState) :=
  match f.run { st := s, bad := false, reads := [], gone := [] } with
  | (.ok x, e) => .ok (x, e)
  | (.error c, e) => .error (c, s.accessed pn e.reads)

/-- The lost column that ended an engine's work (R159, R433). -/
def State.lostMet {α : Type} (s : State) (f : Eng α) : List Nat :=
  (f.run { st := s, bad := false, reads := [], gone := [] }).2.gone

/-- Poison that an engine's work has read before it ended in a fault (R159, R315). -/
def State.badMet {α : Type} (s : State) (f : Eng α) : Bool :=
  (f.run { st := s, bad := false, reads := [], gone := [] }).2.bad

/-- Inserts in an order, after its equals. -/
def insertBy {α : Type} (before : α → α → Bool) (x : α) : List α → List α
  | [] => [x]
  | y :: ys => if before x y then x :: y :: ys else y :: insertBy before x ys

/-- Sorts by an order. -/
def sortBy {α : Type} (before : α → α → Bool) (l : List α) : List α := l.foldl (fun a x => insertBy before x a) []

end Sys2Proof.Machine
end

