-- ==== Sys2Proof/Machine/Layers.lean ====
section
/-! DEFINITION. Layers: descriptors, tiles, records, handles and the ring of versions with its transitions (R128 to R146,
R365 to R368, R448, R449). -/

namespace Sys2Proof.Machine

/-! ## Descriptors (R128, R129, R131) -/

/-- A layer descriptor. -/
structure Desc where
  recbase : Word
  gradbase : Word
  rows : Nat
  cols : Nat
  reccap : Nat
  vinit : Nat
  col0 : Nat
  nparts : Nat
  poolofs : Nat
  poolsize : Nat
  bgrp : Nat
  en : Bool
  deriving DecidableEq, Repr

/-- Decodes a descriptor's bytes. -/
def Desc.read (r : List Byte) : Desc :=
  { recbase := word (recNat 0 8 r), gradbase := word (recNat 8 8 r), rows := recNat 0x10 4 r, cols := recNat 0x14 4 r,
    reccap := recNat 0x18 4 r, vinit := recNat 0x1C 4 r, col0 := recNat 0x20 2 r, nparts := recNat 0x22 2 r,
    poolofs := recNat 0x24 4 r, poolsize := recNat 0x28 4 r, bgrp := recNat 0x2C 1 r % 16, en := recNat 0x2D 1 r % 2 == 1 }

/-- The descriptor keeps its limits (R129). -/
def State.descOk (s : State) (d : Desc) : Bool :=
  d.recbase.toNat % 16 == 0 && s.engineAddr d.recbase && d.gradbase.toNat % 8 == 0 && s.engineAddr d.gradbase &&
    1 ≤ d.rows && d.rows ≤ 2 ^ 20 && 1 ≤ d.cols && d.cols ≤ 2 ^ 20 && 1 ≤ d.nparts && d.nparts ≤ 1024 &&
    d.reccap % (64 * d.nparts) == 0 && d.poolofs % 65536 == 0 && d.poolsize % 262144 == 0

/-- Tile rows and tile columns (R131). -/
def Desc.tm (d : Desc) : Nat := (d.rows + 31) / 32
def Desc.tk (d : Desc) : Nat := (d.cols + 31) / 32
/-- First tile row of part p. -/
def Desc.firstRow (d : Desc) (p : Nat) : Nat := p * d.tm / d.nparts
/-- The part that holds a tile row. -/
def Desc.partOf (d : Desc) (ti : Nat) : Nat :=
  ((upFrom 0 d.nparts).find? fun p => d.firstRow p ≤ ti && ti < d.firstRow (p + 1)).getD 0
/-- The tiles of a part, as (ti, tj) ascending. -/
def Desc.tiles (d : Desc) (p : Nat) : List (Nat × Nat) :=
  (upFrom (d.firstRow p) (d.firstRow (p + 1) - d.firstRow p)).flatMap fun ti => (upFrom 0 d.tk).map fun tj => (ti, tj)
/-- Rows of W that a part holds. -/
def Desc.partRows (d : Desc) (p : Nat) : Nat := min (32 * d.firstRow (p + 1)) d.rows - min (32 * d.firstRow p) d.rows
/-- RIDs of a part. -/
def Desc.rids (d : Desc) (p : Nat) : List Nat :=
  upFrom (p * (d.reccap / d.nparts)) (d.reccap / d.nparts)
/-- Address of quarter q of part p (R137). -/
def Desc.quarter (d : Desc) (p q : Nat) : Word := colBase (d.col0 + p) + word (d.poolofs + q * (d.poolsize / 4))
/-- Address of a record (R132), and of a RID's gradient element (R134, R123). -/
def Desc.record (d : Desc) (rid : Nat) : Word := d.recbase + word (16 * rid)
def Desc.gab (d : Desc) (rid : Nat) : Word := d.gradbase + word (264 * (rid / 64))
def Desc.gabElem (d : Desc) (rid : Nat) : Word := d.gab rid + word (8 + 4 * (rid % 64))

/-- A layer's state in a partition. -/
def Part.layer (p : Part) (l : Nat) : Layer := lookup Layer.reset p.layers l
def State.layer (s : State) (pn l : Nat) : Layer := ((s.part? pn).map fun p => p.layer l).getD Layer.reset

/-- Changes a layer's state. -/
def State.modLayer (s : State) (pn l : Nat) (f : Layer → Layer) : State :=
  s.modPart pn fun p => { p with layers := insert (f (p.layer l)) p.layers l }

/-- Address of a layer's descriptor (R128). -/
def Part.descAddr (p : Part) (l : Nat) : Word := p.ltbase + word (128 * l)

/-- Reads a layer's descriptor at an address at its home, which keeps what it read (R129, R309). -/
def Eng.desc (pn l : Nat) (va : Word) : Eng Desc := do
  let bs ← Eng.read pn va 48
  modify fun e => { e with st := e.st.modLayer pn l fun y => { y with desc := bs } }
  pure (Desc.read bs)

/-- The descriptor as the home last read it. -/
def Layer.known (y : Layer) : Desc := Desc.read y.desc

/-! ## Tiles (R135 to R138) -/

/-- A live entry of a tile: position in the tile, BF16 value, RID. -/
structure Conn where
  pos : Nat
  value : Nat
  rid : Nat
  deriving DecidableEq, Repr

/-- Bytes of a LIST's positions (R136). -/
def listBytes (n : Nat) : Nat := ((10 * n + 7) / 8 + 1) / 2 * 2

/-- Body bytes of a tile before its values, and its size with header and rounding (R136). -/
def mapBytes (list : Bool) (n : Nat) : Nat := if list then listBytes n else 128
def tileSize (list : Bool) (n : Nat) : Nat := (16 + mapBytes list n + 2 * n + 31) / 32 * 32

/-- Strictly ascending. -/
def ascending : List Nat → Bool
  | x :: y :: l => x < y && ascending (y :: l)
  | _ => true

/-- The positions of a tile's map. -/
def positions (list : Bool) (n : Nat) (m : List Byte) : List Nat :=
  let x := leNat m
  if list then (upFrom 0 n).map fun e => x / 2 ^ (10 * e) % 1024 else (upFrom 0 1024).filter fun p => x / 2 ^ p % 2 == 1

/-- Reads tile number i of a part's quarter, which holds tile (ti, tj): its live entries with their RIDs, and the
version it carries; fault 3 where R138 fails it. Every job reads the RID vector with the tile, and can end in PAGE or
PROT there (DESIGN CHOICE, log 97). -/
def Eng.tile (pn : Nat) (d : Desc) (p q i ti tj : Nat) (vers : List Nat) : Eng (List Conn × Nat × Word) := do
  let base := d.quarter p q
  let ofs ← Eng.num pn (base + word (4 * i)) 4
  let va := base + word (32 * ofs)
  let h ← Eng.read pn va 16
  let ridbase := word (recNat 0 8 h)
  let n := recNat 8 2 h
  let enc := recNat 0x0A 1 h
  let ver := recNat 0x0C 4 h
  let e ← get
  Eng.require (enc ≤ 1 && vers.contains ver && n ≤ 1024 && e.st.engineAddr ridbase) 3
  let list := enc == 1
  let m ← Eng.read pn (va + 16) (mapBytes list n)
  let ps := positions list n m
  Eng.require (ps.length == n && ascending ps &&
    ps.all fun x => 32 * ti + x / 32 < d.rows && 32 * tj + x % 32 < d.cols) 3
  let vs ← Eng.read pn (va + word (16 + mapBytes list n)) (2 * n)
  let rs ← Eng.read pn ridbase (4 * n)
  pure ((upFrom 0 n).map (fun j => ⟨ps.getD j 0, recNat (2 * j) 2 vs, recNat (4 * j) 4 rs⟩), ver, va)

/-- Flat index of an entry of tile (ti, tj) (R131). -/
def Desc.flat (d : Desc) (ti tj pos : Nat) : Nat := (32 * ti + pos / 32) * d.cols + 32 * tj + pos % 32

/-- The live connections of a part in a quarter by flat index, in tile order. -/
def Eng.live (pn : Nat) (d : Desc) (p q ver : Nat) : Eng (List (Nat × Conn)) := do
  let ts := d.tiles p
  let ls ← (upFrom 0 ts.length).mapM fun i => do
    let t := ts.getD i (0, 0)
    let r ← Eng.tile pn d p q i t.1 t.2 [ver]
    pure (r.1.map fun c => (d.flat t.1 t.2 c.pos, c))
  pure ls.flatten

/-- The bytes of a tile with entries in ascending position (R135, R136, R367). -/
def tileBytes (ridbase : Word) (ver : Nat) (cs : List Conn) : List Byte :=
  let n := cs.length
  let list : Bool := decide (n ≤ 64)
  let m := if list then (upFrom 0 n).foldl (fun a e => a + ((cs.map (·.pos)).getD e 0) * 2 ^ (10 * e)) 0
           else cs.foldl (fun a c => a + 2 ^ c.pos) 0
  let body := bytesOf 8 ridbase.toNat ++ bytesOf 2 n ++ bytesOf 1 list.toNat ++ bytesOf 1 0 ++ bytesOf 4 ver ++
    bytesOf (mapBytes list n) m ++ cs.flatMap fun c => bytesOf 2 c.value
  body ++ List.replicate (tileSize list n - body.length) 0

/-- A quarter laid out anew: directory, tiles, RID vectors; none when it does not fit (R137, R367). -/
def layQuarter (base : Word) (room ver : Nat) (ts : List (List Conn)) : Option (List Byte) :=
  let dir := (4 * ts.length + 31) / 32 * 32
  let sizes := ts.map fun cs => tileSize (cs.length ≤ 64) cs.length
  let starts := (upFrom 0 ts.length).map fun i => dir + (sizes.take i).sum
  let vecs := dir + sizes.sum
  let vecAt := (upFrom 0 ts.length).map fun i => vecs + 4 * ((ts.take i).map List.length).sum
  let total := vecs + 4 * (ts.map List.length).sum
  if room < total then none
  else
    let d := starts.flatMap fun x => bytesOf 4 (x / 32)
    some (d ++ List.replicate (dir - d.length) 0 ++
      ((upFrom 0 ts.length).flatMap fun i => tileBytes (base + word (vecAt.getD i 0)) ver (ts.getD i [])) ++
      ts.flatMap fun cs => cs.flatMap fun c => bytesOf 4 c.rid)

/-! ## Records (R132) -/

/-- The age and hold word of a record. -/
def Eng.holdWord (pn : Nat) (d : Desc) (rid : Nat) : Eng Nat := Eng.num pn (d.record rid + 12) 4

/-- An age and hold word with hold bits changed; bits 7:4 are written as zero. -/
def withHold (w hold : Nat) : Nat := w / 256 * 256 + hold % 16

/-- Clears hold bit q of the record of a RID (R145, R448). -/
def Eng.clearHold (pn : Nat) (d : Desc) (q rid : Nat) : Eng Unit := do
  let w ← Eng.holdWord pn d rid
  if w / 2 ^ q % 2 = 1 then Eng.write pn none (d.record rid + 12) (bytesOf 4 (withHold w (w % 16 - 2 ^ q)))

/-- Cleans one RID of a RETIRED slot: its bit goes, and a RID that becomes free is zeroed with its gradient element
(R148). -/
def Eng.cleanRid (pn : Nat) (d : Desc) (q rid : Nat) : Eng Unit := do
  let w ← Eng.holdWord pn d rid
  if w / 2 ^ q % 2 = 1 then
    if w % 16 = 2 ^ q then do
      Eng.write pn none (d.record rid) (List.replicate 16 0)
      Eng.write pn none (d.gabElem rid) [0, 0, 0, 0] .atomic
    else Eng.write pn none (d.record rid + 12) (bytesOf 4 (withHold w (w % 16 - 2 ^ q)))

/-! ## The ring (R140 to R145) -/

/-- Slot q of a ring. -/
def Layer.slot (y : Layer) (q : Nat) : RingSlot := y.ring.toList.getD q RingSlot.reset

/-- Changes the slots of a ring that a test names. -/
def Layer.mapRing (y : Layer) (f : RingSlot → RingSlot) : Layer := { y with ring := y.ring.map f }

/-- Changes slot q of a ring. -/
def Layer.modSlot (y : Layer) (q : Nat) (f : RingSlot → RingSlot) : Layer :=
  if h : q < 4 then { y with ring := y.ring.set q (f y.ring[q]) } else y

/-- The first slot in a state. -/
def Layer.find (y : Layer) (st : RingState) : Option Nat := (upFrom 0 4).find? fun q => (y.slot q).state == st

/-- Every slot is FREE. -/
def Layer.allFree (y : Layer) : Bool := (upFrom 0 4).all fun q => (y.slot q).state == .free

/-- The next version number (R140). -/
def Layer.nextVer (y : Layer) : Nat := if y.last + 1 < 2 ^ 32 then y.last + 1 else 1

/-- A version enters BUILDING in slot q, under the descriptor last read (R140, R141). -/
def Layer.build (y : Layer) (q : Nat) (install : Bool) : Layer :=
  { y.modSlot q (fun _ => { RingSlot.reset with state := .building, ver := y.nextVer, born := true }) with
    last := y.nextVer, done := [], install := install, built := y.desc }

/-- The slot of the READY version that is not given up. -/
def Layer.ready (y : Layer) : Option Nat := (upFrom 0 4).find? fun q => (y.slot q).state == .ready && !(y.slot q).giveUp

/-- The version in slot q is given up: its slot is FREE. -/
def Layer.freeSlot (y : Layer) (q : Nat) : Layer := y.modSlot q fun _ => RingSlot.reset

/-- A handle (R142). -/
def handleOf (layer q ver : Nat) : Word := word (ver * 2 ^ 32 + layer * 2 ^ 20 + q * 2 ^ 18)
def handleLayer (h : Word) : Nat := fld 20 12 h
def handleSlot (h : Word) : Nat := fld 18 2 h
def handleVer (h : Word) : Nat := fld 32 32 h

/-- A handle is valid (R142). -/
def State.handleOk (s : State) (pn : Nat) (h : Word) : Bool :=
  let x := (s.layer pn (handleLayer h)).slot (handleSlot h)
  fld 0 18 h == 0 && (x.state == .current || x.state == .superseded) && x.ver == handleVer h

/-- A job reads weight tiles: kinds 1 to 4 (R301). -/
def sparseKind (kind : Nat) : Bool := 1 ≤ kind && kind ≤ 4

/-- The handle a job carries, for the kinds that carry one. -/
def Job.handle (j : Job) : Option Word :=
  if sparseKind (recNat 0 1 j.desc) then some (word (recNat 0x38 8 j.desc)) else none

/-- A job of the partition carries a handle of this layer that a test accepts. -/
def State.jobHolds (s : State) (pn : Nat) (f : Word → Bool) : Bool :=
  s.jobs.any fun j => s.partNoOf j.slot == pn && match j.handle with
    | some h => f h
    | none => false

/-- Empties the selectors of parts. -/
def Layer.emptySelectors (y : Layer) (ps : List Nat) : Layer :=
  { y with selectors := y.selectors.filter fun e => !ps.contains e.1 }

/-- What the versions of one layer do at step 3 of a barrier that continues (R141, R324). -/
def Layer.advance (y : Layer) (held : Nat → Bool) : Layer :=
  let y := match y.ready with
    | some q =>
      (y.mapRing fun (x : RingSlot) => if x.state = RingState.current then { x with state := .superseded } else x).modSlot q
        fun x => { x with state := .current }
    | none => y
  let y := (upFrom 0 4).foldl (fun y q =>
    if (y.slot q).state = .superseded ∧ (y.slot q).bound = 0 ∧ held q = false then
      y.modSlot q fun x => { x with state := .retired }
    else y) y
  let y :=
    if y.marked then
      { y.mapRing (fun (x : RingSlot) => if x.state = RingState.free then x
        else { x with state := .retired, bound := 0, clearing := [], giveUp := false }) with
        marked := false, selectors := [], done := [] }
    else y
  { y.mapRing (fun x => { x with boundAt := x.bound, born := false }) with lastAt := y.last, doneAt := y.done }

/-- The layers whose versions a barrier group changes (R129). -/
def Part.layersOf (p : Part) (g : Nat) : List Nat :=
  (p.layers.filter fun e => e.2.desc != [] && e.2.known.bgrp == g).map (·.1)

/-- Step 3 for every layer of a group (R26, R141). -/
def State.advanceLayers (s : State) (pn g : Nat) : State :=
  match s.part? pn with
  | none => s
  | some p => (p.layersOf g).foldl (fun s l => s.modLayer pn l fun y => y.advance fun q =>
      s.jobHolds pn fun h => h == handleOf l q (y.slot q).ver) s

/-- The engines clear the hold bit of slot q from the records of the parts that still hold it, and the slot of a version
that is given up is then FREE; while a page refuses or migrates they stand there (R141, R145, R412, R448; log 72). -/
def State.clearSlot (s : State) (pn l q : Nat) : State :=
  let y := s.layer pn l
  let d := Desc.read y.built
  let body : Eng Unit := do
    let _ ← ((y.slot q).clearing.flatMap d.rids).mapM fun r => Eng.clearHold pn d q r
    pure ()
  match s.engine pn body with
  | .ok (_, e) => e.st.modLayer pn l fun y =>
      if (y.slot q).giveUp then y.freeSlot q else y.modSlot q fun x => { x with clearing := [] }
  | .error (_, t) => t

/-- The version in slot q is given up: every part's records are to lose its hold bit. -/
def Layer.giveUp (y : Layer) (q : Nat) : Layer :=
  y.modSlot q fun x => { x with clearing := upFrom 0 (Desc.read y.built).nparts, giveUp := true }

/-- The slots of a layer that left FREE or became READY in the superstep under way. -/
def Layer.newSlots (y : Layer) : List Nat :=
  (upFrom 0 4).filter fun q => (y.slot q).state == .ready || ((y.slot q).state == .building && (y.slot q).born)

/-- The parts that joined, in the superstep under way, an update that an earlier one started: their records lose the hold
bits that their shares set, and an install's keep those the program wrote (R145, R153). -/
def Layer.joined (y : Layer) : List Nat := if y.install then [] else y.done.filter fun p => !y.doneAt.contains p

/-- A layer on its way back to its state at the barrier: what a rollback returns at once (R145). -/
def Layer.back (y : Layer) : Layer :=
  let gone := y.newSlots
  let z := gone.foldl Layer.giveUp y
  let z := match y.find .building with
    | some q => if gone.contains q || (y.slot q).giveUp then z else z.modSlot q fun x => { x with clearing := y.joined }
    | none => z
  { z.mapRing (fun x => { x with bound := x.boundAt, born := false }) with
    last := y.lastAt, done := y.doneAt, selectors := [] }

/-- A rollback returns one layer to its state at the barrier (R141, R145). -/
def State.backLayer (s : State) (pn l : Nat) : State :=
  let s := s.modLayer pn l Layer.back
  ((upFrom 0 4).filter fun q => ((s.layer pn l).slot q).clearing != []).foldl (fun s q => s.clearSlot pn l q) s

/-- A rollback returns the layers of a group (R145). -/
def State.backLayers (s : State) (pn g : Nat) : State :=
  match s.part? pn with
  | none => s
  | some p => (p.layersOf g).foldl (fun s l => s.backLayer pn l) s

/-! ## Selectors (R149, R150) -/

/-- No job's keys have reached the selector since it was emptied. -/
def Selector.isEmpty (x : Selector) : Bool := !x.taken

/-- Order of candidates: the higher key first, of equal keys the lower flat index (R149). -/
def betterCand (a b : Nat × Nat) : Bool := b.1 < a.1 || (a.1 == b.1 && a.2 < b.2)

/-- Order of drops: the lower key first, of equal keys the lower flat index (R149). -/
def soonerDrop (a b : Nat × Nat) : Bool := a.1 < b.1 || (a.1 == b.1 && a.2 < b.2)

/-- Puts one candidate in; the higher key of a position stays. -/
def putCand (cs : List (Nat × Nat)) (c : Nat × Nat) : List (Nat × Nat) :=
  match cs.find? fun x => x.2 == c.2 with
  | some x => if x.1 < c.1 then c :: cs.filter fun y => y.2 != c.2 else cs
  | none => c :: cs

/-- Keeps the top candidates: d a row in ROW mode, d in all otherwise (R150). -/
def trimCands (mode d cols : Nat) (cs : List (Nat × Nat)) : List (Nat × Nat) :=
  let sorted := sortBy betterCand cs
  if mode = 0 then
    sorted.filter fun c => ((sorted.filter fun x => x.2 / cols == c.2 / cols && betterCand x c).length) < d
  else sorted.take d

/-- Keys of a DSAMP job reach a selector (R150). -/
def Selector.take (x : Selector) (mode d cols : Nat) (keys : List (Nat × Nat)) : Selector :=
  if x.isEmpty then
    if keys = [] then x
    else { taken := true, mode := mode, d := d, mixed := false, cands := trimCands mode d cols (keys.foldl putCand []) }
  else if x.mode = mode ∧ x.d = d then { x with cands := trimCands mode d cols (keys.foldl putCand x.cands) }
  else { x with mixed := true }

/-- A part's selector. -/
def Layer.selector (y : Layer) (p : Nat) : Selector := lookup Selector.reset y.selectors p

/-- The grow key of an FP32 gradient, none where it is no candidate (R149). -/
def growKey (g : Nat) : Option Nat :=
  let m := g % 2 ^ 31
  if m = 0 ∨ 0x7F800000 < m then none else some m

/-- The drop key of an FP32 weight (R149). -/
def dropKey (w : Nat) : Nat := let m := w % 2 ^ 31; if 0x7F800000 < m then 0 else m + 1

end Sys2Proof.Machine
end

