-- ==== Sys2Proof/Machine/Masks.lean ====
section
/-! DEFINITION. Binding and inspecting versions (R321 to R324), driving the mask engines (R151 to R153, R325 to R329,
R365, R366, R448, R449). -/

namespace Sys2Proof.Machine

/-! ## MBIND, MVER, MUNBIND, MRESET -/

/-- The layer a register names. -/
def layerOf (a : Word) : Nat := fld 0 12 a

/-- The home column of a layer of the issuer's partition has been lost (R433). -/
def State.homeLost (s : State) (l : Nat) : Bool :=
  let y := s.layer s.myPart l
  y.desc != [] && s.lost.contains y.known.col0

/-- Base address of a layer's home column. -/
def State.homeBase (s : State) (l : Nat) : Word := colBase (s.layer s.myPart l).known.col0

/-- An answer from a lost column: poison, and a free value (R433, log 11). -/
def State.lostAnswer (s : State) (d : SReg) (va : Word) : Result :=
  let (bs, s) := ((s.setChk s.cur 1).metLost va).freeBytes 8
  .next (s.answerS d (word (leNat bs)))

/-- MBIND (R321, R329, R449). -/
def execMbind (d a : SReg) (s : State) : Result :=
  let l := layerOf (s.rs a)
  let va := s.curPart.descAddr l
  if s.homeLost l then s.lostAnswer d (s.homeBase l)
  else
    match s.engine s.myPart (Eng.desc s.myPart l va) with
    | .error (none, _) => .next (s.sleepAt va)
    | .error (some 4, _) => s.lostAnswer d va
    | .error (some 1, _) =>
      match s.pageAnswer va .load with
      | .trap code detail => s.raise code detail va
      | _ => s.raise 0x05 0 va
    | .error _ => s.prot va
    | .ok (desc, e) =>
      let e := if e.bad then { e with st := e.st.setChk s.cur 1 } else e
      let y := e.st.layer s.myPart l
      if desc.en = false ∨ s.descOk desc = false then s.version (word l)
      else
        match y.find .current with
        | none => s.version (word l)
        | some q =>
          if (y.slot q).bound = 65535 then s.version (word l)
          else
            let t := e.st.modLayer s.myPart l fun y => y.modSlot q fun x => { x with bound := x.bound + 1 }
            .next (t.answerS d (handleOf l q (y.slot q).ver))

/-- The code of a ring state (R322). -/
def RingState.code : RingState → Nat
  | .free => 0
  | .building => 1
  | .ready => 2
  | .current => 3
  | .superseded => 4
  | .retired => 5

/-- The value MVER writes (R322). -/
def Layer.report (y : Layer) : Word :=
  let cur := match y.find .current with
    | some q => (y.slot q).ver * 2 ^ 32 + (y.slot q).bound * 2 ^ 16
    | none => 0
  word (cur + y.marked.toNat * 2 ^ 15 + ofLanes 3 ((upFrom 0 4).map fun q => (y.slot q).state.code))

/-- MVER (R322). -/
def execMver (d a : SReg) (s : State) : Result :=
  let l := layerOf (s.rs a)
  if s.homeLost l then s.lostAnswer d (s.homeBase l)
  else .next (s.answerS d (s.layer s.myPart l).report)

/-- MUNBIND (R142, R323). -/
def execMunbind (a : SReg) (s : State) : Result :=
  let h := s.rs a
  let q := handleSlot h
  if s.homeLost (handleLayer h) then s.lostAnswer 0 (s.homeBase (handleLayer h))
  else if s.handleOk s.myPart h = false ∨ ((s.layer s.myPart (handleLayer h)).slot q).bound = 0 then s.version h
  else
    .next ((s.modLayer s.myPart (handleLayer h) fun y => y.modSlot q fun x => { x with bound := x.bound - 1 }).answerAfter)

/-- A share of an update of a layer is at a mask engine, or a job carries a handle of it (R324). -/
def State.layerBusy (s : State) (pn l : Nat) : Bool :=
  (s.masks.any fun r => s.partNoOf r.slot == pn && recNat 0 2 r.desc % 4096 == l && !r.hist && !r.deferred) ||
    s.jobHolds pn fun h => handleLayer h == l

/-- An MRESET has marked its layer and waits (R324). -/
def State.resetWaits (s : State) (l : Nat) : Bool := (s.me.redo.map (·.cond)) == some (.layerIdle l)

/-- The wait of an MRESET (R324). -/
def State.awaitReset (s : State) (l : Nat) : Result :=
  if s.layerBusy s.myPart l then .next (s.sleep (.layerIdle l)) else .next s.answerAfter

/-- MRESET: the home reads the layer's descriptor, whose group applies the reset, and sets the mark; it waits for a page
that refuses it, as R449 has an engine do (R324, R330; log 72). -/
def execMreset (a : SReg) (s : State) : Result :=
  let l := layerOf (s.rs a)
  let va := s.curPart.descAddr l
  if s.me.sup = false then s.priv
  else if s.resetWaits l then s.awaitReset l
  else if s.homeLost l then s.lostAnswer 0 (s.homeBase l)
  else
    match s.engine s.myPart (Eng.desc s.myPart l va) with
    | .error (some 4, _) => s.lostAnswer 0 va
    | .error (_, t) => .next (t.sleepAt va)
    | .ok (_, e) => (e.st.modLayer s.myPart l fun y => { y with marked := true }).awaitReset l

/-! ## MUPD and MHIST (R325 to R327) -/

/-- Mask requests of a core in flight. -/
def State.masksOf (s : State) (core : Nat) : List MaskReq := s.masks.filter fun r => coreOf r.slot == core

/-- The engine reads a layer's descriptor as a request that names it is issued (R129): its bytes, or a fault, or neither
while its page migrates. -/
def State.readDesc (s : State) (l : Nat) (va : Word) : List Byte × Option Nat × State :=
  match s.engine s.myPart (Eng.desc s.myPart l va) with
  | .ok (_, e) => ((e.st.layer s.myPart l).desc, none, e.st)
  | .error (c, t) => ([], c, t)

/-- Submits a request (R327). -/
def State.submit (s : State) (d : SReg) (hist : Bool) (r : List Byte) : Result :=
  if 16 ≤ (s.masksOf (coreOf s.cur)).length then .next (s.setS 1 d 0)
  else
    let id := nextId s.me.counters.reqId
    let l := recNat 0 2 r % 4096
    let va := s.curPart.descAddr l
    let (bs, fault, s) := s.readDesc l va
    let q : MaskReq := { slot := s.cur, id := id, hist := hist, desc := r, group := s.me.group, charged := !s.me.svc,
                         orphan := false, deferred := (s.layer s.myPart l).marked, due := s.myCore.now + 2,
                         descAt := va, ldesc := bs, fault := fault, held := false }
    let s := s.modMe fun t => { t with counters := { t.counters with reqId := id } }
    .next ({ s with masks := s.masks ++ [q] }.setS 1 d (word id))

/-- MUPD (R325, R327). -/
def execMupd (d a : SReg) (s : State) : Result :=
  if s.me.inboxOn = false then s.illegal
  else
    s.orTrap (s.localRange (s.rs a) 32 32 [3]) fun o =>
      ((s.consume (spadKey (coreOf s.cur) o) 32).stallFor (upFrom o 32)).submit d false (s.spadBytes o 32)

/-- Bytes of a histogram (R152, R326). -/
def histBytes (level : Nat) : Nat := if level = 2 then 4096 else 8192

/-- MHIST (R326, R327). -/
def execMhist (d a : SReg) (s : State) : Result :=
  if s.me.inboxOn = false then s.illegal
  else
    s.orTrap (s.localRange (s.rs a) 32 32 [3]) fun o =>
      let r := s.spadBytes o 32
      let level := recNat 5 1 r
      if 1 < recNat 4 1 r ∨ 2 < level then s.illegal
      else
        s.orTrap (s.localRange (word (recNat 0x10 8 r)) 64 (histBytes level) [4]) fun _ =>
          ((s.consume (spadKey (coreOf s.cur) o) 32).stallFor (upFrom o 32)).submit d true r

/-! ## Requests at the engine -/

/-- Fields of a request's descriptor. -/
def MaskReq.layer (r : MaskReq) : Nat := recNat 0 2 r.desc % 4096
def MaskReq.part (r : MaskReq) : Nat := recNat 2 2 r.desc
/-- The cluster whose engine serves a request; none while the descriptor that says so has not been read (R131). -/
def MaskReq.engine (r : MaskReq) : Option Nat :=
  if r.ldesc = [] then none else some (clusterOf ((Desc.read r.ldesc).col0 + r.part))

/-- Two requests may meet at one engine. -/
def MaskReq.meets (r x : MaskReq) : Bool := r.engine.isNone || x.engine.isNone || r.engine == x.engine

/-- The request has left its core and is the oldest of its slot at its engine, which holds no other's completion (R192,
R281, R327; log 72). -/
def State.isNext (s : State) (r : MaskReq) : Bool :=
  r.due ≤ s.time && (s.masks.find? fun x => x.slot == r.slot && x.meets r) == some r &&
    !s.masks.any fun x => x.held && x.engine.isSome && x.engine == r.engine && x != r

/-- What a request completes with (R153, R328). -/
structure Share where
  status : Nat
  ver : Nat := 0
  ready : Bool := false
  install : Bool := false
  count : Nat := 0
  regrown : Nat := 0
  short : Nat := 0
  /-- lost columns it met -/
  gone : List Nat := []
  deriving DecidableEq, Repr

/-- The completion record (R328). -/
def MaskReq.record (r : MaskReq) (x : Share) : List Byte :=
  bytesOf 4 (5 + x.status * 2 ^ 8 + r.hist.toNat * 2 ^ 16 +
      workFlags r.group r.charged (x.ready.toNat * 4 + x.install.toNat) * 2 ^ 24) ++ bytesOf 4 r.id ++ bytesOf 4 x.ver ++
    bytesOf 2 r.layer ++ bytesOf 2 r.part ++ bytesOf 4 x.count ++ bytesOf 4 x.regrown ++ bytesOf 4 x.short ++
    bytesOf 2 (recNat (if r.hist then 0x18 else 0x1C) 2 r.desc) ++ bytesOf 2 0

/-- The request ends and its completion is posted; none where the record is held (R40, R281, R328). -/
def State.finishMask (s : State) (r : MaskReq) (x : Share) : Option State :=
  let s := { s with masks := s.masks.filter fun y => !(y.slot == r.slot && y.id == r.id) }
  let s := match r.group with
    | some g => if x.gone = [] then s else s.loseCols (s.partNoOf r.slot) g x.gone
    | none => s
  if r.orphan then some s else s.post r.slot (r.record x) r.group false

/-- Status of a fault code: PAGE or PROT; BADTILE; and for a lost column, for which the spec names none, one of the
two, free (R153, log 11). -/
def State.maskStatus (s : State) (code : Nat) : Nat :=
  if code = 1 then 6 else if code = 2 then 7 else if code = 3 then 4
  else 6 + (Config.freeByte (s.fresh * 2 ^ 64)).toNat % 2

/-- Writes a long run of bytes in lines of 4 KiB; fuel bounds their number. -/
def Eng.writeLong (pn : Nat) : Nat → Word → List Byte → Eng Unit
  | 0, _, _ => pure ()
  | _, _, [] => pure ()
  | n + 1, va, bs => do
    Eng.write pn none va (bs.take 4096)
    Eng.writeLong pn n (va + 4096) (bs.drop 4096)

/-! ## A share of an update (R149 to R151) -/

/-- Parameters of a share (R325). -/
structure Params where
  mode : Nat
  d : Nat
  td : Nat
  qd : Nat
  tg : Nat
  qg : Nat
  deriving DecidableEq, Repr

def MaskReq.params (r : MaskReq) : Params :=
  { mode := recNat 4 1 r.desc, d := recNat 8 4 r.desc, td := recNat 0x0C 4 r.desc, qd := recNat 0x10 4 r.desc,
    tg := recNat 0x14 4 r.desc, qg := recNat 0x18 4 r.desc }

/-- The flat indices a share drops from connections given by drop key and flat index (R151 step 1). -/
def dropsOf (x : Params) (nparts cols : Nat) (ks : List (Nat × Nat)) : List Nat :=
  if x.mode = 0 then
    (ks.filter fun k => ((ks.filter fun y => y.2 / cols == k.2 / cols && soonerDrop y k).length) < x.d).map (·.2)
  else if nparts = 1 then ((sortBy soonerDrop ks).take x.d).map (·.2)
  else (ks.filter fun k => k.1 < x.td).map (·.2) ++
    ((sortBy soonerDrop (ks.filter fun k => k.1 == x.td)).take x.qd).map (·.2)

/-- The flat indices a share regrows from its candidates (R151 step 3). -/
def growsOf (x : Params) (nparts cols : Nat) (drops : List Nat) (cs : List (Nat × Nat)) : List Nat :=
  if x.mode = 0 then
    (cs.filter fun c => ((cs.filter fun y => y.2 / cols == c.2 / cols && betterCand y c).length) <
      (drops.filter fun f => f / cols == c.2 / cols).length).map (·.2)
  else if nparts = 1 then ((sortBy betterCand cs).take drops.length).map (·.2)
  else (cs.filter fun c => x.tg < c.1).map (·.2) ++
    ((sortBy betterCand (cs.filter fun c => c.1 == x.tg)).take x.qg).map (·.2)

/-- The first n free RIDs of a list (R132, R151 step 4). -/
def Eng.freeRids (pn : Nat) (d : Desc) : List Nat → Nat → Eng (List Nat)
  | [], _ => pure []
  | _, 0 => pure []
  | r :: rs, n + 1 => do
    let w ← Eng.holdWord pn d r
    if w % 16 = 0 then do
      let l ← Eng.freeRids pn d rs n
      pure (r :: l)
    else Eng.freeRids pn d rs (n + 1)

/-- Runs a part's share from CURRENT slot c into slot q: dropped, regrown and shortfall, or none for NOSPACE
(R151). -/
def Eng.share (pn : Nat) (d : Desc) (p c q verC verQ : Nat) (x : Params) (sel : List (Nat × Nat)) :
    Eng (Option (Nat × Nat × Nat)) := do
  let live ← Eng.live pn d p c verC
  let keys ← live.mapM fun e => do
    let w ← Eng.num pn (d.record e.2.rid) 4
    pure (dropKey w, e.1)
  let drops := dropsOf x d.nparts d.cols keys
  let kept := live.filter fun e => !drops.contains e.1
  let cands := sel.filter fun e => !(live.any fun y => y.1 == e.2)
  let wanted := sortBy (fun a b => decide (a < b)) (growsOf x d.nparts d.cols drops cands)
  let rids ← Eng.freeRids pn d (d.rids p) wanted.length
  let grown := (wanted.zip rids).map fun g => (g.1, ({ pos := 0, value := 0, rid := g.2 } : Conn))
  let all := sortBy (fun a b => decide (a.1 < b.1)) (kept ++ grown)
  let tiles := (d.tiles p).map fun t =>
    sortBy (fun (a b : Conn) => decide (a.pos < b.pos)) ((all.filter fun e =>
      e.1 / d.cols / 32 == t.1 && e.1 % d.cols / 32 == t.2).map fun e =>
        { e.2 with pos := e.1 / d.cols % 32 * 32 + e.1 % d.cols % 32 })
  match layQuarter (d.quarter p q) (d.poolsize / 4) verQ tiles with
  | none => pure none
  | some bytes => do
    let _ ← grown.mapM fun g =>
      Eng.write pn none (d.record g.2.rid) (List.replicate 8 0 ++ bytesOf 4 d.vinit ++ bytesOf 4 (2 ^ q))
    let _ ← kept.mapM fun e => do
      let w ← Eng.holdWord pn d e.2.rid
      Eng.write pn none (d.record e.2.rid + 12) (bytesOf 4 (withHold w (Nat.lor (w % 16) (2 ^ q))))
    Eng.writeLong pn (bytes.length / 4096 + 1) (d.quarter p q) bytes
    pure (some (drops.length, grown.length, wanted.length - grown.length))

/-- Checks the tiles of a part's quarter 0 for an install, and gives those that carry 0 the version's number (R153). -/
def Eng.install (pn : Nat) (d : Desc) (p ver : Nat) : Eng Unit := do
  let ts := d.tiles p
  let _ ← (upFrom 0 ts.length).mapM fun i => do
    let t := ts.getD i (0, 0)
    let r ← Eng.tile pn d p 0 i t.1 t.2 [ver, 0]
    if r.2.1 = 0 then Eng.write pn none (r.2.2 + 12) (bytesOf 4 ver) else pure ()
  pure ()

/-! ## The update a share belongs to (R144, R153, R365, R448) -/

/-- How a share finds its ring. -/
inductive Entry2 where
  /-- it joins the version under construction in slot q -/
  | joins (q : Nat)
  /-- it starts an update into slot q -/
  | starts (q : Nat)
  /-- it starts an install -/
  | installs
  | defers
  deriving DecidableEq, Repr

/-- How a share of part p enters a layer's ring; a ring whose cleaning stands refuses every share (R144, R153, R365,
R448, R449). -/
def Layer.enter (y : Layer) (p nparts : Nat) : Entry2 :=
  if (upFrom 0 4).any fun q => (y.slot q).stalled then .defers
  else match y.find .building with
  | some q => if p < nparts ∧ y.done.contains p = false ∧ (y.slot q).giveUp = false then .joins q else .defers
  | none =>
    if y.allFree then .installs
    else if (y.find .ready).isSome then .defers
    else
      match y.find .current with
      | none => .defers
      | some c =>
        match [1, 2, 3].find? fun k => (y.slot ((c + k) % 4)).state == .free with
        | some k => .starts ((c + k) % 4)
        | none => .defers

/-- The parameters of a share fit the layer and the part's selector (R150, R325). -/
def Layer.paramsOk (y : Layer) (d : Desc) (p : Nat) (x : Params) : Bool :=
  let sel := y.selector p
  p < d.nparts && x.mode ≤ 1 && (sel.isEmpty || (!sel.mixed && sel.mode == x.mode && sel.d == x.d)) &&
    (if x.mode = 0 then x.d * d.partRows p else x.d) ≤ 65536

/-- The slot of the update under way, when it is not given up. -/
def Layer.building (y : Layer) : Option Nat := (y.find .building).filter fun q => !(y.slot q).giveUp

/-- The number of the version under construction, 0 where there is none (R328). -/
def Layer.verBuilt (y : Layer) : Nat := (y.building.map fun q => (y.slot q).ver).getD 0

/-- The layer's next share is one of an install (R153). -/
def Layer.installing (y : Layer) : Bool := y.allFree || (y.building.isSome && y.install)

/-- Cancels the update under way: the selectors of the parts that had completed and of the part that failed are empty, its
hold bits are cleared, and its slot is then FREE (R448). A first install share that fails before slot 0 is BUILDING leaves
the hold bits that the runtime wrote and empties its part's selector, DESIGN CHOICE, since R448 does not say (log 99). -/
def State.cancelUpdate (s : State) (pn l p : Nat) : State :=
  match (s.layer pn l).building with
  | none => s.modLayer pn l fun y => y.emptySelectors [p]
  | some q =>
    (s.modLayer pn l fun y => { (y.giveUp q).emptySelectors (p :: y.done) with done := [] }).clearSlot pn l q

/-- A share has completed: its part is done, and with the last part the version is READY (R141). -/
def State.partDone (s : State) (pn l p q : Nat) (d : Desc) : State × Bool :=
  let y := s.layer pn l
  let done := addKey p y.done
  let ready := (upFrom 0 d.nparts).all done.contains
  (s.modLayer pn l fun y =>
    let y := { y with done := done }
    let y := if y.install then y else y.emptySelectors [p]
    if ready then y.modSlot q fun x => { x with state := .ready } else y, ready)

/-- A share that ended in a fault: the update is cancelled, and what the reads left stays; the record names the version
under construction, and says whether the share was one of an install (R328, R366, R410, R448). -/
def State.failShare (s : State) (pn l p c : Nat) (gone : List Nat) : State × Share :=
  let y := s.layer pn l
  ({ s.cancelUpdate pn l p with fresh := s.fresh + 1 },
   { status := s.maskStatus c, ver := y.verBuilt, install := y.installing, gone := gone })

/-- Runs a share of an update that has entered slot q. -/
def State.runShare (s : State) (pn l p q : Nat) (d : Desc) (x : Params) : Option (State × Share) :=
  let y := s.layer pn l
  let ver := (y.slot q).ver
  let body : Eng (Option (Nat × Nat × Nat)) :=
    match y.find .current with
    | some c => Eng.share pn d p c q (y.slot c).ver ver x (y.selector p).cands
    | none => Eng.fail 3
  match s.engine pn body with
  | .ok (some (dr, gr, sh), e) =>
    let r := e.st.partDone pn l p q d
    some (r.1, { status := 0, ver := ver, ready := r.2, count := dr, regrown := gr, short := sh })
  | .ok (none, e) => some (e.st.cancelUpdate pn l p, { status := 2, ver := ver })
  | .error (some c, t) => some (t.failShare pn l p c (s.lostMet body))
  | .error (none, _) => none

/-- Runs a share of an install: the tiles are checked under the number the version has or takes, and only then does it
enter slot 0 (R140, R153, R366). -/
def State.runInstall (s : State) (pn l p : Nat) (d : Desc) : Option (State × Share) :=
  let y := s.layer pn l
  let started := y.building.isSome
  let ver := if started then (y.slot 0).ver else y.nextVer
  match s.engine pn (Eng.install pn d p ver) with
  | .ok (_, e) =>
    let t := if started then e.st else e.st.modLayer pn l fun y => y.build 0 true
    let r := t.partDone pn l p 0 d
    some (r.1, { status := 0, ver := ver, ready := r.2, install := true })
  | .error (some c, t) => some (t.failShare pn l p c (s.lostMet (Eng.install pn d p ver)))
  | .error (none, _) => none

/-- The descriptor of a request: as it was read at the issue, or now where its page migrated then; a fault, or none while
it migrates on (R129, R412). -/
def State.requestDesc (s : State) (pn : Nat) (r : MaskReq) : Except (Option Nat × State) (Desc × State) :=
  match r.fault with
  | some c => .error (some c, s)
  | none =>
    if r.ldesc ≠ [] then .ok (Desc.read r.ldesc, s)
    else
      match s.engine pn (Eng.desc pn r.layer r.descAt) with
      | .ok (d, e) => .ok (d, e.st)
      | .error x => .error x

/-- A MUPD at its engine: the statuses in the order in which they apply (R129, R144, R153, R324, R325); none while it
stalls, also while an earlier share's hold bits are still to be cleared. One that meets DEFER and BADPARAM both answers DEFER
and leaves the selector, DESIGN CHOICE, since the spec gives the two no order (log 98). -/
def State.serveUpdate (s : State) (r : MaskReq) : Option (State × Share) :=
  let pn := s.partNoOf r.slot
  let l := r.layer
  let p := r.part
  match s.requestDesc pn r with
  | .error (none, _) => none
  | .error (some c, t) => some (t.failShare pn l p c (if c = 4 then [offset r.descAt / 2 ^ 26] else []))
  | .ok (d, s) =>
    let y := s.layer pn l
    if d.en = false then some (s, { status := 5 })
    else if r.deferred then some (s, { status := 1 })
    else if s.descOk d = false then some (s.cancelUpdate pn l p, { status := 3, ver := y.verBuilt, install := y.installing })
    else
      match y.enter p d.nparts with
      | .defers => some (s, { status := 1 })
      | .joins q =>
        if (y.slot q).clearing ≠ [] then none
        else if y.install then s.runInstall pn l p d
        else if y.paramsOk d p r.params then s.runShare pn l p q d r.params
        else some (s.cancelUpdate pn l p, { status := 3, ver := y.verBuilt })
      | .starts q =>
        if y.paramsOk d p r.params then (s.modLayer pn l fun y => y.build q false).runShare pn l p q d r.params
        else some (s.modLayer pn l fun y => y.emptySelectors [p], { status := 3 })
      | .installs => if p < d.nparts then s.runInstall pn l p d else some (s, { status := 3, install := true })

/-- A request whose completion is posted, or held by its engine until there is room (R281). -/
def State.endMask (s : State) (r : MaskReq) (t : State) (x : Share) : State :=
  (t.finishMask r x).getD { s with masks := updateIf (fun y => y == r) (fun y => { y with held := true }) s.masks }

/-- The request of a slot with a number. -/
def State.maskOf (s : State) (k id : Nat) : Option MaskReq := s.masks.find? fun r => r.slot == k && r.id == id

/-- MASK_SHARE_COMPLETION (R151, R153, R328). -/
def execMaskShareCompletion (slot id : Nat) (s : State) : Result :=
  match s.maskOf slot id with
  | none => .next s
  | some r =>
    if r.hist ∨ s.isNext r = false then .next s
    else
      match s.serveUpdate r with
      | none => .next s
      | some (t, x) => .next (s.endMask r t x)

/-! ## Histograms (R152, R326) -/

/-- The bin of a key at a level, none where the prefix does not match (R152). -/
def histBin (level pre key : Nat) : Option Nat :=
  if level = 0 then some (key / 2 ^ 21 % 2048)
  else if level = 1 then (if key / 2 ^ 21 = pre then some (key / 2 ^ 10 % 2048) else none)
  else if key / 2 ^ 10 = pre then some (key % 1024)
  else none

/-- The counts of the bins, as bytes. -/
def histogram (level : Nat) (bins : List Nat) : List Byte :=
  (upFrom 0 (histBytes level / 4)).flatMap fun b => bytesOf 4 (min (bins.filter fun x => x == b).length (2 ^ 32 - 1))

/-- The keys a histogram counts. -/
def Eng.histKeys (pn : Nat) (d : Desc) (y : Layer) (p kind : Nat) (c : Nat) : Eng (List Nat) :=
  if kind = 1 then pure ((y.selector p).cands.map (·.1))
  else do
    let live ← Eng.live pn d p c (y.slot c).ver
    live.mapM fun e => do
      let w ← Eng.num pn (d.record e.2.rid) 4
      pure (dropKey w)

/-- A MHIST at its engine; none while it stalls. -/
def State.serveHist (s : State) (r : MaskReq) : Option (State × Share) :=
  let pn := s.partNoOf r.slot
  match s.requestDesc pn r with
  | .error (none, _) => none
  | .error (some c, t) => some ({ t with fresh := s.fresh + 1 },
      { status := s.maskStatus c, gone := if c = 4 then [offset r.descAt / 2 ^ 26] else [] })
  | .ok (d, s) =>
    let y := s.layer pn r.layer
    let kind := recNat 4 1 r.desc
    let level := recNat 5 1 r.desc
    if d.en = false then some (s, { status := 5 })
    else if r.deferred then some (s, { status := 1 })
    else if s.descOk d = false ∨ d.nparts ≤ r.part ∨ (kind = 0 ∧ (y.find .current).isNone) then some (s, { status := 3 })
    else
      let body := Eng.histKeys pn d y r.part kind ((y.find .current).getD 0)
      match s.engine pn body with
      | .error (none, _) => none
      | .error (some c, t) =>
        some ({ t with fresh := s.fresh + 1 }, { status := s.maskStatus c, gone := s.lostMet body })
      | .ok (keys, e) =>
        let bins := keys.filterMap (histBin level (recNat 8 4 r.desc))
        let o := localOfs (recNat 0x10 8 r.desc)
        let dst := spadKey (coreOf r.slot) o
        let who := r.group.map fun g => (pn, g, if r.orphan then r.slot else s.taskOf r.slot)
        let bytes := histogram level bins
        let t := e.st.homeWrite who dst bytes
        let t := match s.imageSpad r.slot o with
          | some a => t.homeWrite none a bytes
          | none => t
        some (t, { status := 0, count := bins.length })

/-- MHIST_COMPLETION (R152, R326, R328); while the partition is out the histogram also goes to the raw scratchpad area of
its image, from which the restore brings it back, DESIGN CHOICE (R421, log 74). -/
def execMhistCompletion (slot id : Nat) (s : State) : Result :=
  match s.maskOf slot id with
  | none => .next s
  | some r =>
    if r.hist = false ∨ s.isNext r = false then .next s
    else
      match s.serveHist r with
      | none => .next s
      | some (t, x) => .next (s.endMask r t x)

/-! ## Retirement (R141, R148, R449) -/

/-- The engine cleans a RETIRED slot, which becomes FREE; it stalls where a page refuses it (R449). -/
def State.cleanRetired (s : State) (pn l q : Nat) : State :=
  let y := s.layer pn l
  let body : Eng Unit := do
    let _ ← (upFrom 0 y.known.reccap).mapM fun r => Eng.cleanRid pn y.known q r
    pure ()
  match s.engine pn body with
  | .ok (_, e) => e.st.modLayer pn l fun y => y.freeSlot q
  | .error (some _, t) => if (y.slot q).stalled then t else t.modLayer pn l fun y => y.modSlot q fun x => { x with stalled := true }
  | .error (none, t) => t

/-- What the engines still owe a ring slot: the cleaning of a RETIRED one, the hold bits of a version given up. -/
def State.cleanSlot (s : State) (pn l q : Nat) : State :=
  let x := (s.layer pn l).slot q
  if x.state = .retired then s.cleanRetired pn l q
  else if x.clearing ≠ [] ∨ x.giveUp then s.clearSlot pn l q
  else s

/-- RETIREMENT_CLEANED (R141, R148). -/
def execRetirementCleaned (part : BitVec 4) (layer : BitVec 12) (rslot : BitVec 2) (s : State) : Result :=
  .next (s.cleanSlot part.toNat layer.toNat rslot.toNat)

/-- MASK_ENGINE_RETRY: a stalled engine reads the page again, and goes on where it performs (R449). -/
def execMaskEngineRetry (part : BitVec 4) (layer : BitVec 12) (rslot : BitVec 2) (s : State) : Result :=
  .next (s.cleanSlot part.toNat layer.toNat rslot.toNat)

end Sys2Proof.Machine
end

