-- ==== Sys2Proof/Machine/Matrix.lean ====
section
/-! DEFINITION. Matrix jobs: MQ, MPOLL, MWAIT, the matrix engine, and ACCLD and ACCST (R116 to R119, R147, R150, R301 to
R320). -/

namespace Sys2Proof.Machine

/-! ## Descriptor and geometry (R301 to R307) -/

/-- Fields of a job descriptor. -/
def jobKind (r : List Byte) : Nat := recNat 0 1 r
def jobA (r : List Byte) : Nat := recNat 1 1 r
def jobB (r : List Byte) : Nat := recNat 2 1 r
def jobFlags (r : List Byte) : Nat := recNat 3 1 r
def jobTile (r : List Byte) : Nat := recNat 4 1 r

/-- Bytes of an operand element (R302). -/
def operandSize (t : Nat) : Nat := if t = 0 then 8 else if t = 1 then 4 else if t ≤ 3 then 2 else 1

/-- The window beside window 0 through which a type may be read; 0 for none (R302). -/
def operandWindow (t : Nat) : Nat := if 1 ≤ t ∧ t ≤ 7 then t else 0

/-- The type has a scale table. -/
def isMx (t : Nat) : Bool := t == 6 || t == 8 || t == 9

/-- Operand pairings (R303). -/
def pairOk (kind a b : Nat) : Bool :=
  let small := fun t => t == 4 || t == 5 || isMx t
  let int := fun t => t == 7 || t == 10
  let half := fun t => t == 2 || t == 3
  if kind = 0 then (a == 1 && b == 1) || (half a && half b) || (small a && small b) || (int a && int b)
  else if kind = 5 then a == 0 && b == 0
  else if kind ≤ 2 then b == 2
  else a == 2 && b == 2

/-- Kind, types and acctile fit (R303). -/
def jobOk (r : List Byte) : Bool :=
  jobKind r ≤ 5 && pairOk (jobKind r) (jobA r) (jobB r) && jobTile r ≤ 7 && !(jobKind r == 5 && jobTile r % 2 == 1)

/-- Fields of GEOM (R304). -/
def geomTM (g : Word) : Nat := fld 47 15 g + 1
def geomTN (g : Word) : Nat := fld 32 15 g + 1
def geomK (g : Word) : Nat := fld 0 20 g + 1
def geomM (g : Word) : Nat := 32 * fld 47 15 g + fld 27 5 g + 1
def geomN (g : Word) : Nat := 32 * fld 32 15 g + fld 22 5 g + 1

/-- Valid rows and columns of a tile (R306). -/
def validRows (g : Word) (ti : Nat) : Nat := if ti + 1 = geomTM g then fld 27 5 g + 1 else 32
def validCols (g : Word) (tj : Nat) : Nat := if tj + 1 = geomTN g then fld 22 5 g + 1 else 32

/-- The tile of a job from its issuer's coordinate and step, none for an EMPTY job (R305). -/
def Slot.tileOf (t : Slot) (step : Nat) : Option (Nat × Nat) :=
  let c := t.sys.coord
  let x := t.sys.tgext
  let row := fld 19 6 c * (fld 13 6 x + 1) + fld 13 6 c
  let r := (((row * (fld 8 5 x + 1) + fld 8 5 c) * (fld 3 5 x + 1) + fld 3 5 c) * (fld 0 3 x + 1)) + fld 0 3 c
  let g := (fld 0 3 x + 1) * (fld 3 5 x + 1) * (fld 8 5 x + 1) * (fld 13 6 x + 1) * (fld 19 6 x + 1)
  let n := r + step * g
  let geom := t.sys.geom
  if geomTM geom * geomTN geom ≤ n then none
  else if fld 62 2 geom = 1 then some (n % geomTM geom, n / geomTM geom)
  else some (n / geomTN geom, n % geomTN geom)

/-- GEOM fits a layer (R308). -/
def geomFits (kind : Nat) (g : Word) (d : Desc) : Bool :=
  if kind = 1 then geomM g == d.rows && geomK g == d.cols
  else if kind = 2 then geomM g == d.cols && geomK g == d.rows
  else geomM g == d.rows && geomN g == d.cols

/-- A panel or scale table: local, in window 0 or its type's window, aligned, inside its window, granted rd; a stride that
is not aligned concerns no single address, and the descriptor's stands for it (R302, R307, R337). -/
def State.panel (s : State) (at_ va : Word) (rows rowBytes stride e win : Nat) : Check Unit :=
  match s.myTarget va with
  | some (.spad core w o) =>
    let rows := if stride = 0 then 1 else rows
    if core ≠ coreOf s.cur then .error (0x04, 0, va)
    else if (w ≠ 0 ∧ w ≠ win) ∨ va.toNat % e ≠ 0 ∨ 0x20000 < o + (rows - 1) * stride + rowBytes then .error (0x03, 0, va)
    else if stride % e ≠ 0 then .error (0x03, 0, at_)
    else if (upFrom 0 rows).all fun i => s.me.permits [3] (o + i * stride) rowBytes then .ok ()
    else .error (0x04, 0, va)
  | _ => .error (0x04, 0, va)

/-- k-blocks of 32. -/
def blocksOf (k : Nat) : Nat := (k + 31) / 32

/-- The panels and scale tables of a job's tile (R307). -/
def State.checkPanels (s : State) (at_ : Word) (r : List Byte) (g : Word) (ti tj : Nat) : Check Unit :=
  let k := geomK g
  let ea := operandSize (jobA r)
  let eb := operandSize (jobB r)
  let sparse := jobKind r == 1 || jobKind r == 2
  let a := if sparse then .ok () else
    s.panel at_ (word (recNat 0x10 8 r)) (validRows g ti) (k * ea) (recNat 0x0C 4 r) ea (operandWindow (jobA r))
  let b := s.panel at_ (word (recNat 0x18 8 r)) k (validCols g tj * eb) (recNat 0x20 4 r) eb (operandWindow (jobB r))
  let sa := if !sparse && isMx (jobA r) then
    s.panel at_ (word (recNat 0x28 8 r)) 1 (validRows g ti * blocksOf k) 0 1 (operandWindow (jobA r)) else .ok ()
  let sb := if isMx (jobB r) then
    s.panel at_ (word (recNat 0x30 8 r)) (blocksOf k) (validCols g tj) 32 1 (operandWindow (jobB r)) else .ok ()
  [a, b, sa, sb].foldl (fun x y => match x with
    | .ok _ => y
    | .error e => .error e) (.ok ())

/-- The handle of a sparse job is valid, its layer unmarked and within its limits, and GEOM fits (R308, R309, R329). -/
def State.sparseOk (s : State) (r : List Byte) : Bool :=
  let h := word (recNat 0x38 8 r)
  let y := s.layer s.myPart (handleLayer h)
  s.handleOk s.myPart h && !y.marked && s.descOk y.known && geomFits (jobKind r) s.me.sys.geom y.known

/-- Jobs of a core whose completion has not been posted (R309). -/
def State.jobsOf (s : State) (core : Nat) : List Job := s.jobs.filter fun j => coreOf j.slot == core

/-- The layer descriptor that a job takes with it, read at its home as the job is issued (R129, R309): its bytes, or a
fault with which the job ends (R315), or neither while its page migrates (R412); and whether it is poisoned (R432). -/
def State.jobDesc (s : State) (l : Nat) (va : Word) : List Byte × Option Nat × Bool × State :=
  match s.engine s.myPart (Eng.desc s.myPart l va) with
  | .ok (_, e) => ((e.st.layer s.myPart l).desc, none, e.bad, e.st)
  | .error (c, t) => ([], c, false, t)

/-- MQ (R309). -/
def execMq (d a : SReg) (s : State) : Result :=
  if s.me.inboxOn = false then s.illegal
  else
    s.orTrap (s.localRange (s.rs a) 64 64 [3]) fun o =>
      let r := s.spadBytes o 64
      if jobOk r = false then s.illegal
      else if sparseKind (jobKind r) && !s.sparseOk r then s.version (word (recNat 0x38 8 r))
      else
        let geom := s.me.sys.geom
        let tile := s.me.tileOf (recNat 8 4 r)
        let panels := match tile with
          | some t => s.checkPanels (s.rs a) r geom t.1 t.2
          | none => .ok ()
        s.orTrap panels fun _ =>
          let s := (s.consume (spadKey (coreOf s.cur) o) 64).stallFor (upFrom o 64)
          if 16 ≤ (s.jobsOf (coreOf s.cur)).length then .next (s.setS 1 d 0)
          else
            let id := nextId s.me.counters.jobId
            let l := handleLayer (word (recNat 0x38 8 r))
            let va := s.curPart.descAddr l
            let (ld, fault, bad, s) := if sparseKind (jobKind r) then s.jobDesc l va else ([], none, false, s)
            let j : Job := { slot := s.cur, id := id, desc := r, geom := geom, tile := tile, group := s.me.group,
                             charged := !s.me.svc, running := false, resumed := false, orphan := false,
                             due := s.myCore.now + 2, descAt := va, ldesc := ld, fault := fault, begun := false,
                             chunks := 0, flags := 0, sat := false, bad := bad }
            let s := s.modMe fun t => { t with counters := { t.counters with jobId := id } }
            .next ({ s with jobs := s.jobs ++ [j] }.setS 1 d (word id))

/-- The job of a slot with a number, in flight. -/
def State.jobOf (s : State) (k id : Nat) : Option Job := s.jobs.find? fun j => j.slot == k && j.id == id

/-- What MPOLL answers (R316). -/
def State.jobState (s : State) (k id : Nat) : Nat :=
  if notIssued (s.slot k).counters.jobId id then 0
  else match s.jobOf k id with
    | some j => if j.running then 2 else 1
    | none => 3

/-- MPOLL (R316). -/
def execMpoll (d a : SReg) (s : State) : Result := .next (s.setS 1 d (word (s.jobState s.cur (fld 0 32 (s.rs a)))))

/-- MWAIT (R317). -/
def execMwait (a : SReg) (s : State) : Result :=
  let id := fld 0 32 (s.rs a)
  let st := s.jobState s.cur id
  if st = 0 ∨ st = 3 then .next s else .next (s.hold (.job id))

/-! ## Operands -/

/-- The value of an operand element of a type with its scale byte (R104, R302). -/
def operandVal (t scale bits : Nat) : Val :=
  let mx := fun (m : Mx) => if scale = 255 then Val.nan false else (m.value bits).scale ((scale : Int) - 127)
  if t = 0 then fmtF64.decode bits
  else if t = 1 then fmtF32.decode bits
  else if t = 2 then fmtBF16.decode bits
  else if t = 3 then fmtF16.decode bits
  else if t = 4 then fmtE4M3.decode bits
  else if t = 5 then fmtE5M2.decode bits
  else if t = 6 then mx .e4m3
  else if t = 8 then mx .e5m2
  else if t = 9 then mx .int8
  else .fin false 0 0

/-- An operand under NANZ, and whether it was replaced (R119). -/
def nanz (on : Bool) (v : Val) : Val × Nat := if on && v.isNan then (.fin false 0 0, 1) else (v, 0)

/-- A number of n bytes of a core's scratchpad at home. -/
def State.spadAt (s : State) (core o n : Nat) : Nat := s.mem.num (spadKey core o) n

/-- Bits of row i of the A panel, and their scale bytes (R307). -/
def Job.aBits (j : Job) (s : State) (i : Nat) : List (Nat × Nat) :=
  let r := j.desc
  let core := coreOf j.slot
  let e := operandSize (jobA r)
  let k := geomK j.geom
  (upFrom 0 k).map fun x =>
    (s.spadAt core (localOfs (recNat 0x10 8 r) + i * recNat 0x0C 4 r + x * e) e,
     if isMx (jobA r) then s.spadAt core (localOfs (recNat 0x28 8 r) + i * blocksOf k + x / 32) 1 else 127)

/-- Bits of column n of the B panel, and their scale bytes. -/
def Job.bBits (j : Job) (s : State) (n : Nat) : List (Nat × Nat) :=
  let r := j.desc
  let core := coreOf j.slot
  let e := operandSize (jobB r)
  (upFrom 0 (geomK j.geom)).map fun x =>
    (s.spadAt core (localOfs (recNat 0x18 8 r) + x * recNat 0x20 4 r + n * e) e,
     if isMx (jobB r) then s.spadAt core (localOfs (recNat 0x30 8 r) + 32 * (x / 32) + n) 1 else 127)

/-- Key of cell n of row i of a core's accumulator rows. -/
def cellKey (slot i n : Nat) : Nat := accKey (lcolOf slot) ((32 * coreNo slot + i) * 1024 + 4 * n)

/-- The job adds onto its cells (R301). -/
def Job.adds (j : Job) : Bool := jobFlags j.desc / 2 % 2 == 1

/-- Some operand byte of the panels or their scale tables is poisoned, or a cell to which the job adds (R159, R315,
R432). -/
def Job.panelBad (j : Job) (s : State) (vm vn : Nat) : Bool :=
  let r := j.desc
  let core := coreOf j.slot
  let row := fun (o n : Nat) => s.anyPoison (spadKey core o) n
  let sparse := jobKind r == 1 || jobKind r == 2
  (!sparse && (upFrom 0 vm).any fun i =>
      row (localOfs (recNat 0x10 8 r) + i * recNat 0x0C 4 r) (geomK j.geom * operandSize (jobA r))) ||
    (upFrom 0 (geomK j.geom)).any fun x =>
      row (localOfs (recNat 0x18 8 r) + x * recNat 0x20 4 r) (vn * operandSize (jobB r)) ||
    (!sparse && isMx (jobA r) && row (localOfs (recNat 0x28 8 r)) (vm * blocksOf (geomK j.geom))) ||
    (isMx (jobB r) && (upFrom 0 (blocksOf (geomK j.geom))).any fun x => row (localOfs (recNat 0x30 8 r) + 32 * x) vn) ||
    (j.adds && (jobKind r ≤ 2 || jobKind r == 5) && (upFrom 0 vm).any fun i =>
      s.anyPoison (cellKey j.slot i (32 * jobTile r)) (vn * if jobKind r = 5 then 8 else 4))

/-! ## Sums (R116 to R118) -/

/-- Pieces of 32; fuel bounds their number. -/
def chunks32 {α : Type} : Nat → List α → List (List α)
  | 0, _ => []
  | _, [] => []
  | n + 1, l => l.take 32 :: chunks32 n (l.drop 32)

/-- The exact sum of products, with NV for a signalling operand, an invalid product or infinities of both signs
(R116). -/
def chunkSum (ps : List (Val × Val)) : Val × Fl :=
  let prods := ps.map fun p => p.1.mul p.2
  let nv := ps.any fun p => p.1.isSig || p.2.isSig
  let invalid := prods.any Option.isNone
  let nan := invalid || prods.any fun p => (p.map Val.isNan).getD false
  let inf := fun (n : Bool) => prods.any fun p => p == some (.inf n)
  if nan then (.nan false, flIf (nv || invalid) nvFl)
  else if inf true && inf false then (.nan false, nvFl)
  else if inf true then (.inf true, noFl)
  else if inf false then (.inf false, noFl)
  else
    let z := prods.foldl (fun (a : Int × Int) p => match p with
      | some (.fin n m e) => addExact (decide (a.1 < 0)) a.1.natAbs a.2 n m e
      | _ => a) (0, 0)
    let allNeg := prods.all fun p => match p with
      | some (.fin n m _) => n && m == 0
      | _ => false
    (if z.1 = 0 then .fin allNeg 0 0 else .fin (decide (z.1 < 0)) z.1.natAbs z.2, noFl)

/-- One cell accumulated over the chunks (R116). -/
def accumulate (cell : Nat) (ps : List (Val × Val)) : Nat × Fl :=
  (chunks32 (ps.length / 32 + 1) ps).foldl (fun a ch =>
    let (v, f) := chunkSum ch
    let (c, g) := fmtF32.addVal .rne (fmtF32.decode a.1) v
    (c, a.2 ||| f ||| g)) (cell, noFl)

/-- One integer cell accumulated over the chunks, and whether an addition saturated (R118). -/
def accumulateInt (cell : Int) (ps : List (Int × Int)) : Int × Bool :=
  (chunks32 (ps.length / 32 + 1) ps).foldl (fun a ch =>
    let z := a.1 + (ch.map fun p => p.1 * p.2).sum
    let c := max (-(2 ^ 31 : Int)) (min (2 ^ 31 - 1) z)
    (c, a.2 || c != z)) (cell, false)

/-- One FP64 cell accumulated step by step (R117). -/
def accumulateF64 (md : Mode) (cell : Nat) (ps : List (Val × Val)) : Nat × Fl :=
  ps.foldl (fun a p =>
    let (c, f) := match p.1.mul p.2 with
      | none => fmtF64.nanOut true
      | some v => fmtF64.addVal md v (fmtF64.decode a.1)
    (c, a.2 ||| f)) (cell, noFl)

/-! ## Running a job (R311, R313, R315) -/

/-- What a job ends with (R314). -/
structure Done where
  status : Nat := 0
  fault : Nat := 0
  sat : Bool := false
  nans : Nat := 0
  flags : Fl := noFl
  made : Nat := 0
  bad : Bool := false
  /-- lost columns it met -/
  gone : List Nat := []
  deriving DecidableEq, Repr

/-- What a stretch of a job's chunks leaves: the cells, flags, saturation, replaced operands, poison read. -/
structure Stretch where
  st : State
  flags : Fl := noFl
  sat : Bool := false
  nans : Nat := 0
  bad : Bool := false
  deriving DecidableEq, Repr

/-- The (i, n) positions of a tile. -/
def tilePositions (vm vn : Nat) : List (Nat × Nat) := (upFrom 0 vm).flatMap fun i => (upFrom 0 vn).map fun n => (i, n)

/-- Values of lists of bits under NANZ, with the count of replaced ones. -/
def valsOf (t : Nat) (on : Bool) (bits : List (Nat × Nat)) : List Val × Nat :=
  let vs := bits.map fun b => nanz on (operandVal t b.2 b.1)
  (vs.map (·.1), (vs.map (·.2)).sum)

/-- What a cell starts a stretch from: the value it holds, or zero where the job starts it (R311, R313). -/
def Job.start (j : Job) (cell : Nat) : Nat := if j.begun || j.adds then cell else 0

/-- The products of a stretch of chunks lo to hi - 1, of unit products each. -/
def stretchOf {α : Type} (unit lo hi : Nat) (l : List α) : List α := (l.drop (unit * lo)).take (unit * (hi - lo))

/-- Writes the cells of a float tile after a stretch of chunks, from the rows of A and the columns of B. -/
def Job.floatCells (j : Job) (s : State) (as bs : List (List Val)) (lo hi : Nat) : State × Fl :=
  (tilePositions as.length bs.length).foldl (fun (a : State × Fl) p =>
    let key := cellKey j.slot p.1 (32 * jobTile j.desc + p.2)
    let (c, f) := accumulate (j.start (s.mem.num key 4)) (stretchOf 32 lo hi ((as.getD p.1 []).zip (bs.getD p.2 [])))
    (a.1.homeWrite none key (bytesOf 4 c), a.2 ||| f)) (s, noFl)

/-- Writes the cells of an integer tile after a stretch of chunks. -/
def Job.intCells (j : Job) (s : State) (as bs : List (List Int)) (lo hi : Nat) : State × Bool :=
  (tilePositions as.length bs.length).foldl (fun (a : State × Bool) p =>
    let key := cellKey j.slot p.1 (32 * jobTile j.desc + p.2)
    let (c, f) := accumulateInt (sextNat 32 (j.start (s.mem.num key 4)))
      (stretchOf 32 lo hi ((as.getD p.1 []).zip (bs.getD p.2 [])))
    (a.1.homeWrite none key (bytesOf 4 (wrapInt 32 c)), a.2 || f)) (s, false)

/-- Writes the cell pairs of an FP64 tile after a stretch of steps. -/
def Job.f64Cells (j : Job) (s : State) (as bs : List (List Val)) (lo hi : Nat) : State × Fl :=
  let md := modeOf (jobFlags j.desc / 4 % 8)
  (tilePositions as.length bs.length).foldl (fun (a : State × Fl) p =>
    let key := cellKey j.slot p.1 (32 * jobTile j.desc + 2 * p.2)
    let (c, f) := accumulateF64 md (j.start (s.mem.num key 8)) (stretchOf 1 lo hi ((as.getD p.1 []).zip (bs.getD p.2 [])))
    (a.1.homeWrite none key (bytesOf 8 c), a.2 ||| f)) (s, noFl)

/-- The tile (ti, tj) of the weights as a job's handle names it. -/
def Eng.handleTile (pn : Nat) (d : Desc) (h : Word) (ti tj : Nat) : Eng (List Conn) := do
  let p := d.partOf ti
  let r ← Eng.tile pn d p (handleSlot h) ((ti - d.firstRow p) * d.tk + tj) ti tj [handleVer h]
  pure r.1

/-- Row r of a tile as 32 BF16 bit patterns, +0 where nothing is live; column r when transposed (R139, R311). -/
def denseRow (transposed : Bool) (cs : List Conn) (r : Nat) : List Nat :=
  (upFrom 0 32).map fun c =>
    ((cs.find? fun x => x.pos == (if transposed then 32 * c + r else 32 * r + c)).map (·.value)).getD 0

/-- A stretch of a DENSE or DF64 job. -/
def Job.denseStretch (j : Job) (s : State) (vm vn lo hi : Nat) : Stretch :=
  let r := j.desc
  let bad := j.panelBad s vm vn
  if jobA r = 7 ∨ jobA r = 10 then
    let int := fun (t b : Nat) => if t = 7 then sextNat 8 b else (b : Int)
    let as := (upFrom 0 vm).map fun i => (j.aBits s i).map fun b => int (jobA r) b.1
    let bs := (upFrom 0 vn).map fun n => (j.bBits s n).map fun b => int (jobB r) b.1
    let (t, sat) := j.intCells s as bs lo hi
    { st := t, sat := sat, bad := bad }
  else
    let on := jobFlags r % 2 == 1
    let as := (upFrom 0 vm).map fun i => valsOf (jobA r) on (j.aBits s i)
    let bs := (upFrom 0 vn).map fun n => valsOf (jobB r) on (j.bBits s n)
    let nans := min ((as.map (·.2)).sum + (bs.map (·.2)).sum) (2 ^ 32 - 1)
    let (t, f) := (if jobKind r = 5 then j.f64Cells else j.floatCells) s (as.map (·.1)) (bs.map (·.1)) lo hi
    { st := t, nans := nans, flags := f, bad := bad }

/-- The reading of the tiles of an SPMM or SPMMT job (R139). -/
def Job.tiles (j : Job) (pn : Nat) (h : Word) (d : Desc) (ti : Nat) : Eng (List (List Conn)) :=
  (upFrom 0 (blocksOf (geomK j.geom))).mapM fun x =>
    if jobKind j.desc = 2 then Eng.handleTile pn d h x ti else Eng.handleTile pn d h ti x

/-- A stretch of an SPMM or SPMMT job: its tiles are read before a cell is written, so a tile that fails leaves the cells
(R138, R315). -/
def Job.sparseStretch (j : Job) (s : State) (h : Word) (d : Desc) (ti vm vn lo hi : Nat) :
    Except (Option Nat × State) Stretch :=
  let pn := s.partNoOf j.slot
  match s.engine pn (j.tiles pn h d ti) with
  | .error x => .error x
  | .ok (tiles, e) =>
    let on := jobFlags j.desc % 2 == 1
    let as := (upFrom 0 vm).map fun i => valsOf 2 on
      (((tiles.flatMap fun cs => denseRow (jobKind j.desc == 2) cs i).take (geomK j.geom)).map fun b => (b, 127))
    let bs := (upFrom 0 vn).map fun x => valsOf 2 on (j.bBits s x)
    let nans := min ((as.map (·.2)).sum + (bs.map (·.2)).sum) (2 ^ 32 - 1)
    let (t, f) := j.floatCells e.st (as.map (·.1)) (bs.map (·.1)) lo hi
    .ok { st := t, nans := nans, flags := f, bad := e.bad || j.panelBad s vm vn }

/-- Chunks of a job's products, or steps of a DF64 job (R116, R117). -/
def Job.total (j : Job) : Nat := if jobKind j.desc = 5 then geomK j.geom else blocksOf (geomK j.geom)

/-- A stretch of the chunks of a job that writes cells. -/
def Job.stretch (j : Job) (s : State) (ti tj lo hi : Nat) : Except (Option Nat × State) Stretch :=
  let vm := validRows j.geom ti
  let vn := validCols j.geom tj
  match j.handle with
  | none => .ok (j.denseStretch s vm vn lo hi)
  | some h => j.sparseStretch s h (Desc.read j.ldesc) ti vm vn lo hi

/-- A job with the layer descriptor it goes by: as it was read at the issue, or now where its page migrated then; a fault,
or none while it migrates on (R129, R315, R412). -/
def Job.withDesc (j : Job) (s : State) : Except (Option Nat × State) (Job × State) :=
  match j.handle, j.fault with
  | none, _ => .ok (j, s)
  | _, some c => .error (some c, s)
  | some h, none =>
    if j.ldesc ≠ [] then .ok (j, s)
    else
      let pn := s.partNoOf j.slot
      match s.engine pn (Eng.desc pn (handleLayer h) j.descAt) with
      | .ok (_, e) => .ok ({ j with ldesc := (e.st.layer pn (handleLayer h)).desc, bad := j.bad || e.bad }, e.st)
      | .error x => .error x

/-- A running job has got as far as chunk hi: its cells hold the sums of the chunks before it (R313). -/
def State.advanceJob (s : State) (j : Job) (hi : Nat) : State :=
  match j.tile, j.withDesc s with
  | none, _ => s
  | _, .error (_, t) => t
  | some (ti, tj), .ok (k, u) =>
    if 3 ≤ jobKind j.desc ∧ jobKind j.desc ≤ 4 then s
    else
      match k.stretch u ti tj j.chunks hi with
      | .error (_, t) => t
      | .ok x =>
        let on := fun (_ : Job) => { k with begun := true, chunks := hi, flags := k.flags ||| x.flags,
                                            sat := k.sat || x.sat, bad := k.bad || x.bad }
        { x.st with jobs := updateIf (fun y => y == j) on x.st.jobs }

/-- A free number below n + 1 (log 45). -/
def State.freeUpTo (s : State) (n : Nat) : Nat :=
  leNat ((upFrom 0 4).map fun i => Config.freeByte (s.fresh * 2 ^ 64 + 2 ^ 61 + i)) % (n + 1)

/-- The running job that a test names stops between two chunks, at which of those that are left is free, before something
else reads or writes its cells; a read may also come before the job has started them (R313, R320; log 45). -/
def State.betweenChunks (s : State) (p : Job → Bool) (write : Bool) : State :=
  match s.jobs.find? fun j => j.running && p j with
  | none => s
  | some j =>
    let early := !write && !j.begun
    let n := s.freeUpTo (j.total - j.chunks + early.toNat)
    let s := { s with fresh := s.fresh + 1 }
    if early && n == 0 then s else s.advanceJob j (j.chunks + n - early.toNat)

/-- Under whose journal a job's additions stand (R147). -/
def Job.writer (j : Job) (s : State) : Option Writer :=
  j.group.map fun g => (s.partNoOf j.slot, g, if j.orphan then j.slot else s.taskOf j.slot)

/-- Adds a gradient into the element of a RID as one atomic at its home (R124, R147, R410). -/
def Eng.addGrad (pn : Nat) (who : Option Writer) (d : Desc) (rid x : Nat) (l : Int) : Eng Fl := do
  let bs ← Eng.readAs .atomic pn (d.gab rid) 264
  let (g, f) := (Gab.read bs).add (rid % 64) x l
  Eng.write pn who (d.gab rid) g.bytes .atomic
  pure f

/-- Adds gradients one after another; stops at a fault, what was added before it standing (R315). -/
def State.addGrads (pn : Nat) (who : Option Writer) (d : Desc) (l : Int) : State → Done → List (Nat × Nat) →
    Option (State × Done)
  | s, x, [] => some (s, x)
  | s, x, (rid, g) :: gs =>
    match s.engine pn (Eng.addGrad pn who d rid g l) with
    | .error (none, _) => none
    | .error (some c, t) => some (t, { x with status := 2, fault := c, gone := s.lostMet (Eng.addGrad pn who d rid g l)
                                              bad := x.bad || s.badMet (Eng.addGrad pn who d rid g l) })
    | .ok (f, e) => State.addGrads pn who d l e.st
        { x with flags := x.flags ||| f, made := min (x.made + 1) (2 ^ 32 - 1), bad := x.bad || e.bad } gs

/-- Runs an SDDMM or DSAMP job (R147, R150, R311, R369). -/
def Job.runGrads (j : Job) (s : State) (h : Word) (d : Desc) (ti tj vm vn : Nat) : Option (State × Done) :=
  let pn := s.partNoOf j.slot
  match s.engine pn (Eng.handleTile pn d h ti tj) with
  | .error (none, _) => none
  | .error (some c, t) => some (t, { status := 2, fault := c, gone := s.lostMet (Eng.handleTile pn d h ti tj)
                                     bad := j.bad || s.badMet (Eng.handleTile pn d h ti tj) })
  | .ok (cs, e) =>
    let on := jobFlags j.desc % 2 == 1
    let as := (upFrom 0 vm).map fun i => valsOf 2 on (j.aBits s i)
    let bs := (upFrom 0 vn).map fun x => valsOf 2 on (j.bBits s x)
    let nans := min ((as.map (·.2)).sum + (bs.map (·.2)).sum) (2 ^ 32 - 1)
    let grad := fun (p : Nat) => accumulate 0 (((as.map (·.1)).getD (p / 32) []).zip ((bs.map (·.1)).getD (p % 32) []))
    let bad := j.bad || e.bad || j.panelBad s vm vn
    if jobKind j.desc = 3 then
      let live := sortBy (fun (a b : Conn) => decide (a.rid < b.rid)) cs
      let fl := orFl (live.map fun c => (grad c.pos).2)
      State.addGrads pn (j.writer s) d (sextNat 8 (recNat 5 1 j.desc)) e.st { nans := nans, flags := fl, bad := bad }
        (live.map fun c => (c.rid, (grad c.pos).1))
    else
      let ps := ((tilePositions vm vn).map fun p => 32 * p.1 + p.2)
      let fl := orFl (ps.map fun p => (grad p).2)
      let keys := (ps.filter fun p => !(cs.any fun c => c.pos == p)).filterMap fun p =>
        (growKey (grad p).1).map fun k => (k, d.flat ti tj p)
      let t := e.st.modLayer pn (handleLayer h) fun y =>
        let p := d.partOf ti
        { y with selectors :=
            insert ((y.selector p).take (jobTile j.desc) (recNat 0x24 4 j.desc) d.cols keys) y.selectors p }
      some (t, { nans := nans, flags := fl, made := keys.length, bad := bad })

/-- The lost column that ended a job's reading of its tiles, and whether poison was read before. -/
def Job.lostTiles (j : Job) (s : State) (ti : Nat) : List Nat :=
  match j.handle with
  | some h => s.lostMet (j.tiles (s.partNoOf j.slot) h (Desc.read j.ldesc) ti)
  | none => []
def Job.badTiles (j : Job) (s : State) (ti : Nat) : Bool :=
  match j.handle with
  | some h => s.badMet (j.tiles (s.partNoOf j.slot) h (Desc.read j.ldesc) ti)
  | none => false

/-- Runs a job whose descriptor is known from where it stands to its end; none while it stalls. -/
def Job.runKnown (j : Job) (s : State) : Option (State × Done) :=
  match j.tile with
  | none => some (s, { status := 1 })
  | some (ti, tj) =>
    if 3 ≤ jobKind j.desc ∧ jobKind j.desc ≤ 4 then
      j.runGrads s (word (recNat 0x38 8 j.desc)) (Desc.read j.ldesc) ti tj (validRows j.geom ti) (validCols j.geom tj)
    else
      match j.stretch s ti tj j.chunks j.total with
      | .error (none, _) => none
      | .error (some c, t) =>
        some (t, { status := 2, fault := c, flags := j.flags, sat := j.sat, bad := j.bad || j.badTiles s ti
                   gone := j.lostTiles s ti })
      | .ok x => some (x.st, { nans := x.nans, flags := j.flags ||| x.flags, sat := j.sat || x.sat, bad := j.bad || x.bad })

/-- Runs a job from where it stands to its end; none while it stalls. An EMPTY job reads nothing (R305). -/
def Job.run (j : Job) (s : State) : Option (State × Done) :=
  if j.tile = none then j.runKnown s
  else
    match j.withDesc s with
    | .error (none, _) => none
    | .error (some c, t) =>
      some (t, { status := 2, fault := c, flags := j.flags, sat := j.sat, bad := j.bad,
                 gone := if c = 4 then [offset j.descAt / 2 ^ 26] else [] })
    | .ok (k, u) => k.runKnown u

/-- The completion record (R314). -/
def Job.record (j : Job) (x : Done) : List Byte :=
  let flags := workFlags j.group j.charged (x.bad.toNat * 8 + x.sat.toNat * 4 + j.resumed.toNat)
  let t := j.tile.getD (2 ^ 32 - 1, 2 ^ 32 - 1)
  bytesOf 4 (4 + x.status * 2 ^ 8 + x.fault * 2 ^ 16 + flags * 2 ^ 24) ++ bytesOf 4 j.id ++ bytesOf 4 x.nans ++
    bytesOf 1 x.flags.toNat ++ bytesOf 1 (jobKind j.desc) ++ bytesOf 2 (recNat 6 2 j.desc) ++ bytesOf 4 t.1 ++ bytesOf 4 t.2 ++
    bytesOf 4 x.made ++ bytesOf 4 ((j.handle.map handleVer).getD 0)

/-- The job ends and its completion is posted; none where the record is held (R40, R281, R315). -/
def State.finishJob (s : State) (j : Job) (x : Done) : Option State :=
  let s := { s with jobs := s.jobs.filter fun y => !(y.slot == j.slot && y.id == j.id) }
  let s := if x.bad && !j.orphan then s.setChk j.slot 1 else s
  let s := match x.fault, j.group with
    | 4, some g => s.loseCols (s.partNoOf j.slot) g x.gone
    | _, _ => s
  if j.orphan then some s else s.post j.slot (j.record x) j.group false

/-! ## The engine (R310) -/

/-- Jobs of a block, in MQ order. -/
def State.blockJobs (s : State) (lcol : Nat) : List Job := s.jobs.filter fun j => lcolOf j.slot == lcol

/-- The oldest queued job of a core, once it has left the core (R192, R300). -/
def State.headJob (s : State) (core : Nat) : Option Job :=
  ((s.jobsOf core).find? fun j => !j.running).filter fun j => j.due ≤ s.time

/-- Jobs a turn of a core may start (R310). -/
def State.turnLength (s : State) (core : Nat) : Nat := max 1 (fld 0 4 (s.core core).mweight)

/-- The job a block's engine starts next, and its place in the round (R310). -/
def State.nextJob (s : State) (lcol : Nat) : Option (Job × Engine) :=
  let e := lookup Engine.reset s.engines lcol
  match if 0 < e.turns then s.headJob (lcol * 8 + e.core) else none with
  | some j => some (j, { e with turns := e.turns - 1 })
  | none =>
    (upFrom 1 8).findSome? fun n =>
      let c := (e.core + n) % 8
      (s.headJob (lcol * 8 + c)).map fun j => (j, { core := c, turns := s.turnLength (lcol * 8 + c) - 1 })

/-- JOB_START (R310). -/
def execJobStart (lcol : Nat) (s : State) : Result :=
  if (s.blockJobs lcol).any (·.running) ∨ s.stillOut (lcol * 32) then .next s
  else
    match s.nextJob lcol with
    | none => .next s
    | some (j, e) =>
      .next { s with engines := insert e s.engines lcol, jobs := updateIf (fun x => x == j) (fun x => { x with running := true }) s.jobs }

/-- JOB_COMPLETION (R311, R314, R315). -/
def execJobCompletion (lcol : Nat) (s : State) : Result :=
  match (s.blockJobs lcol).find? (·.running) with
  | none => .next s
  | some j =>
    if s.stillOut j.slot then .next s
    else
      match j.run s with
      | none => .next s
      | some (t, x) => .next ((t.finishJob j x).getD s)

/-! ## ACCLD and ACCST (R318 to R320) -/

/-- Bytes of an element and of its cells for a type (R319). -/
def moveSize (t : Nat) : Nat := if t = 0 then 4 else if t ≤ 2 then 2 else if t ≤ 5 then 1 else 8

/-- The formats that round and widen (R319). -/
def moveFmt (t : Nat) : Fmt := if t = 1 then fmtBF16 else if t = 2 then fmtF16 else if t = 3 then fmtE4M3 else fmtE5M2

/-- The operand word of a move (R318). -/
structure CellRange where
  row : Nat
  rows : Nat
  cell : Nat
  cells : Nat
  stride : Nat
  deriving DecidableEq, Repr

/-- Reads the operand word. -/
def CellRange.read (w : Word) : CellRange :=
  { row := fld 0 8 w, rows := fld 8 8 w + 1, cell := fld 16 8 w, cells := fld 24 8 w + 1, stride := fld 32 32 w }

/-- Elements of a row of a move. -/
def CellRange.elems (c : CellRange) (t : Nat) : Nat := if t = 6 then c.cells / 2 else c.cells

/-- The checks of R318: the scratchpad offset of the first element. -/
def State.checkMove (s : State) (a w : Word) (t : Nat) (bits : List Nat) : Check Nat :=
  let c := CellRange.read w
  let e := moveSize t
  let me := coreNo s.cur
  if t = 7 then .error (0x01, 0, s.ir)
  else if c.row < 32 * me ∨ 32 * me + 32 < c.row + c.rows then .error (0x04, 0, a)
  else if 256 < c.cell + c.cells then .error (0x01, 0, s.ir)
  else if t = 6 ∧ (c.cell % 2 = 1 ∨ c.cells % 2 = 1) then .error (0x03, 0, a)
  else
    match s.myTarget a with
    | some (.spad core _ o) =>
      let n := c.elems t * e
      if core ≠ coreOf s.cur then .error (0x04, 0, a)
      else if a.toNat % e ≠ 0 ∨ c.stride % e ≠ 0 ∨ 0x20000 < o + (c.rows - 1) * c.stride + n then .error (0x03, 0, a)
      else if (upFrom 0 c.rows).all fun i => s.me.permits bits (o + i * c.stride) n then .ok o
      else .error (0x04, 0, a)
    | _ => .error (0x04, 0, a)

/-- An FP32 or INT32 cell as an element (R114, R319). -/
def cellToElem (t : Nat) (md : Mode) (x : Nat) : Nat × Fl :=
  if t = 0 ∨ t = 6 then (x, noFl)
  else if t = 5 then
    let i := sextNat 32 x
    (wrapInt 8 (max (-128) (min 127 i)), flIf (i < -128 || 127 < i) satFl)
  else if t ≤ 2 then (moveFmt t).ofVal md (fmtF32.decode x)
  else narrow (t + 1) (.mode md) x

/-- An element as a cell; a signalling one sets NV (R102, R319). -/
def elemToCell (t x : Nat) : Nat × Fl :=
  if t = 0 ∨ t = 6 then (x, noFl)
  else if t = 5 then (wrapInt 32 (sextNat 8 x), noFl)
  else fmtF32.ofVal .rne ((moveFmt t).decode x)

/-- Cycles a move stalls its core (R320). -/
def CellRange.stall (c : CellRange) : Nat := c.rows * ((c.cells * 4 + 63) / 64) - 1

/-- The places of a move: scratchpad offset, and key of the cell. -/
def CellRange.places (c : CellRange) (slot o t : Nat) : List (Nat × Nat) :=
  (upFrom 0 c.rows).flatMap fun r => (upFrom 0 (c.elems t)).map fun j =>
    (o + r * c.stride + j * moveSize t,
     cellKey slot (c.row + r - 32 * coreNo slot) (c.cell + j * (if t = 6 then 2 else 1)))

/-- The core stalls for n cycles (R320). -/
def State.stallCycles (s : State) (n : Nat) : State := s.modMyCore fun c => { c with now := c.now + n }

/-- ACCLD (R318 to R320). -/
def execAccld (a b : SReg) (t : BitVec 3) (rm : Rm) (s : State) : Result :=
  let n := t.toNat
  s.orTrap (s.checkMove (s.rs a) (s.rs b) n [4]) fun o =>
    let c := CellRange.read (s.rs b)
    let size := if n = 6 then 8 else 4
    let s := s.betweenChunks (fun j => coreOf j.slot == coreOf s.cur) false
    let xs := (c.places s.cur o n).map fun p => (p.1, cellToElem n (modeOf rm.toNat) (s.mem.num p.2 size))
    let s := (c.places s.cur o n).foldl (fun s p => s.consume p.2 size) s
    let s := xs.foldl (fun s x => s.spadWrite x.1 (bytesOf (moveSize n) x.2.1)) s
    .next ((s.setFlags 1 (orFl (xs.map fun x => x.2.2))).stallCycles c.stall)

/-- ACCST (R318 to R320). -/
def execAccst (a b : SReg) (t : BitVec 3) (_rm : Rm) (s : State) : Result :=
  let n := t.toNat
  s.orTrap (s.checkMove (s.rs a) (s.rs b) n [3]) fun o =>
    let c := CellRange.read (s.rs b)
    let size := if n = 6 then 8 else 4
    let s := s.betweenChunks (fun j => coreOf j.slot == coreOf s.cur) true
    let xs := (c.places s.cur o n).map fun p => (p.2, elemToCell n (s.spadNum p.1 (moveSize n)))
    let s := (c.places s.cur o n).foldl (fun s p => s.consume (spadKey (coreOf s.cur) p.1) (moveSize n)) s
    let s := xs.foldl (fun s x => s.homeWrite none x.1 (bytesOf size x.2.1)) s
    .next ((s.setFlags 1 (orFl (xs.map fun x => x.2.2))).stallCycles c.stall)

end Sys2Proof.Machine
end

