-- ==== Sys2Proof/Machine/Atomics.lean ====
section
/-! DEFINITION. Atomics (R91, R263). -/

namespace Sys2Proof.Machine

/-- An operation on the old value, the operand and the expected value, all of w bits. -/
abbrev AmoFn := Nat → Nat → Nat → Nat → Nat

/-- The operations of R263. -/
def amoAddOf : AmoFn := fun w old b _ => (old + b) % 2 ^ w
def amoSminOf : AmoFn := fun w old b _ => if sextNat w old ≤ sextNat w b then old else b
def amoSmaxOf : AmoFn := fun w old b _ => if sextNat w old ≤ sextNat w b then b else old
def amoUminOf : AmoFn := fun _ old b _ => min old b
def amoUmaxOf : AmoFn := fun _ old b _ => max old b
def amoAndOf : AmoFn := fun _ old b _ => Nat.land old b
def amoOrOf : AmoFn := fun _ old b _ => Nat.lor old b
def amoXorOf : AmoFn := fun _ old b _ => xorNat old b
def amoSwapOf : AmoFn := fun _ _ b _ => b
def amoCasOf : AmoFn := fun _ old b x => if old = x then b else old

/-- Drops the view lines of slot k that overlap n bytes at a home key (R80, R91). -/
def State.dropHome (s : State) (k key n : Nat) : State :=
  s.dropLines (coreOf k) fun l => l.slot == slotNo k && lineOf key ≤ l.line && l.line ≤ lineOf (key + n - 1)

/-- Forces home the issuer's entries to the home bank of an address (R91). -/
def State.forceBank (s : State) (va : Word) : State := s.crystWhere s.cur fun e => e.banks.contains (vbank va)

/-- Some entry of the issuer to that bank holds the atomic back (R90, R91). -/
def State.bankBusy (s : State) (va : Word) : Bool := s.stalledAt s.cur fun e => e.banks.contains (vbank va)

/-- A flag word lets an ACQF of sequence q go on (R87). -/
def flagOk (f : Word) (q : Nat) : Bool := f != 0 && reached (fld 0 44 f) q

/-- The quad at a home key. -/
def State.quadAt (s : State) (key : Nat) : Word := word (s.mem.num key 8)

/-- A sleeping ACQF has read a word that lets it go on, and keeps it (R87). -/
def Slot.sawFlag (t : Slot) (f : Word) : Slot :=
  { t with cond := .flagSeen f, redo := t.redo.map fun r => { r with cond := .flagSeen f } }

/-- Slot k, asleep in an ACQF whose flag word overlaps n bytes at a key, would go on with the word as it stands; none does
before its partition has resumed (R420, R422). -/
def State.wouldSee (s : State) (k key n : Nat) : Bool :=
  match (s.slot k).status, (s.slot k).cond with
  | .asleep, .flagWord x q => x < key + n && key < x + 8 && flagOk (s.quadAt x) q && !s.stillOut k
  | _, _ => false

/-- The slot reads its flag word again. -/
def State.rereadFlag (s : State) (k : Nat) : State :=
  match (s.slot k).cond with
  | .flagWord key _ =>
    let t := s.modSlot k fun t => t.sawFlag (s.quadAt key)
    if s.anyPoison key 8 then t.setChk k 1 else t
  | _ => s

/-- Every ACQF that sleeps on a word reads it again after a RELF or an atomic at it (R87). -/
def State.rereadFlags (s : State) (key n : Nat) : State :=
  ((s.slots.filter fun e => s.wouldSee e.1 key n).map (·.1)).foldl State.rereadFlag s

/-- The old value as sd receives it (R263). -/
def amoResult (q : Bool) (old : Nat) : Word := if q then word old else sextWord 32 old

/-- The read-modify-write at a home key: the old value, and the state after. -/
def State.atomicAt (s : State) (f : AmoFn) (key n : Nat) (b x : Word) : Nat × State :=
  let w := 8 * n
  let old := leNat (s.homeBytes key n)
  let new := f w old (b.toNat % 2 ^ w) (x.toNat % 2 ^ w)
  (old, ((s.consume key n).homeWrite (s.writerOf s.cur) key (bytesOf n new)).rereadFlags key n)

/-- AMO: decoding, alignment, the own regions for a local word, which no view line covers (R86); elsewhere the home's
answer, the issuer's entries to that bank, then the operation, and the view line over the word goes; of one at a lost
column the write alone is given up (R91, R254, R263). -/
def State.atomic (s : State) (f : AmoFn) (d a b : SReg) (q : Bool) : Result :=
  let va := s.rs a
  let n := if q then 8 else 4
  match s.myTarget va with
  | none => s.prot va
  | some t =>
    if va.toNat % n ≠ 0 then s.align va
    else
      match t, s.isLocal t with
      | .spad core _ o, true =>
        if s.me.permits [3, 4] o n then
          (let (old, u) := s.atomicAt f (spadKey core o) n (s.rs b) (s.rs d)
           .next (((u.countAccess).stallFor [o]).setS 4 d (amoResult q old)))
        else s.prot va
      | _, _ =>
        match s.answer va t n .atomic with
        | .trap code detail => (s.past t).raise code detail va
        | .stall => .next (s.sleepAt va)
        | .device =>
          let (bs, u) := s.freeBytes n
          .next ((s.markDevice va u).countAccess.answerS d (amoResult q (leNat bs)))
        | .lost key =>
          let u := s.forceBank va
          if u.bankBusy va then .next (u.sleep .entries)
          else
            let (bs, u) := u.freeBytes n
            let u := ((u.setChk s.cur 1).metLost va).dropHome s.cur key n
            .next (u.countAccess.answerS d (amoResult q (leNat bs)))
        | .at key _ _ w =>
          let u := s.forceBank va
          if u.bankBusy va then .next (u.sleep .entries)
          else
            let (old, u) := (u.usedPage va .atomic w).atomicAt f key n (s.rs b) (s.rs d)
            .next ((u.dropHome s.cur key n).countAccess.answerS d (amoResult q old))

/-- AMO.ADD (R263). -/
def execAmoAdd (d a b : SReg) (w : Bool) (s : State) : Result := s.atomic amoAddOf d a b w
/-- AMO.SMIN (R263). -/
def execAmoSmin (d a b : SReg) (w : Bool) (s : State) : Result := s.atomic amoSminOf d a b w
/-- AMO.SMAX (R263). -/
def execAmoSmax (d a b : SReg) (w : Bool) (s : State) : Result := s.atomic amoSmaxOf d a b w
/-- AMO.UMIN (R263). -/
def execAmoUmin (d a b : SReg) (w : Bool) (s : State) : Result := s.atomic amoUminOf d a b w
/-- AMO.UMAX (R263). -/
def execAmoUmax (d a b : SReg) (w : Bool) (s : State) : Result := s.atomic amoUmaxOf d a b w
/-- AMO.AND (R263). -/
def execAmoAnd (d a b : SReg) (w : Bool) (s : State) : Result := s.atomic amoAndOf d a b w
/-- AMO.OR (R263). -/
def execAmoOr (d a b : SReg) (w : Bool) (s : State) : Result := s.atomic amoOrOf d a b w
/-- AMO.XOR (R263). -/
def execAmoXor (d a b : SReg) (w : Bool) (s : State) : Result := s.atomic amoXorOf d a b w
/-- AMO.SWAP (R263). -/
def execAmoSwap (d a b : SReg) (w : Bool) (s : State) : Result := s.atomic amoSwapOf d a b w
/-- AMO.CAS (R263). -/
def execAmoCas (d a b : SReg) (w : Bool) (s : State) : Result := s.atomic amoCasOf d a b w

end Sys2Proof.Machine
end

