-- ==== Sys2Proof/Machine/Ordering.lean ====
section
/-! DEFINITION. Releases, acquires, fences and the management of the log (R79, R83 to R90, R93, R264 to R269), and the
events of homes that move its entries (R76, R77, R87, R90, R412). -/

namespace Sys2Proof.Machine

/-! ## Releases (R83, R84, R264) -/

/-- Asks the homes about every entry of the issuer. -/
def State.askAll (s : State) : State := s.acceptWhere s.cur Entry.unanswered

/-- The slot has slept where the instruction had to wait. -/
def State.afterWait (s : State) (waits : Bool) : State := if waits then s.answerAfter else s

/-- REL (R83): it sleeps where an entry has no answer yet. -/
def execRel (d : SReg) (s : State) : Result :=
  let waits := !s.answered s.cur
  let s := s.askAll
  if s.answered s.cur then
    (let s := s.publish s.cur
     .next (s.setOrAnswerS waits d (word s.me.pub)))
  else .next (s.sleep .entries)

/-- The word a RELF writes: writer id and pub (R84). -/
def flagWordOf (writer pub : Nat) : Nat := writer % 2 ^ 20 * 2 ^ 44 + pub % 2 ^ 44

/-- The flag address of RELF and ACQF: decoded on this device, 8-byte aligned, and granted where it is local
(R54, R84, R87, R254). -/
def State.flagAt (s : State) (va : Word) (kind : Kind) : Check Target :=
  match s.myTarget va with
  | none | some (.device _) => .error (0x04, 0, va)
  | some t =>
    if va.toNat % 8 ≠ 0 then .error (0x03, 0, va)
    else
      match t, s.isLocal t with
      | .spad _ _ o, true => if s.me.permits kind.localBits o 8 then .ok t else .error (0x04, 0, va)
      | _, _ => .ok t

/-- Publishes, and writes the flag word at its home as an atomic, which every ACQF asleep on it reads (R84, R87). -/
def State.relFlag (s : State) (key : Nat) : State :=
  let s := s.publish s.cur
  let s := (s.homeWrite (s.writerOf s.cur) key (bytesOf 8 (flagWordOf s.cur s.me.pub))).dropHome s.cur key 8
  s.rereadFlags key 8

/-- RELF (R84): a fault on the flag address leaves nothing published or written. Its write is no store or atomic of the
access ordinal, DESIGN CHOICE (R93, log 69). -/
def execRelf (d a : SReg) (s : State) : Result :=
  let va := s.rs a
  s.orTrap (s.flagAt va .atomic) fun t =>
    match s.answer va t 8 .atomic with
    | .trap code detail => s.raise code detail va
    | .stall => .next (s.sleepAt va)
    | .at key _ _ w =>
      let u := (s.askAll).forceBank va
      if !u.answered u.cur || u.bankBusy va then .next (u.sleep .entries)
      else
        let u := ((u.usedPage va .atomic w).relFlag key).stallAt t 8
        .next (u.setOrAnswerS (!s.isLocal t || !s.answered s.cur) d (word u.me.pub))
    | .lost key =>
      let u := (s.askAll).forceBank va
      if !u.answered u.cur || u.bankBusy va then .next (u.sleep .entries)
      else
        let u := (((u.setChk u.cur 1).metLost va).publish u.cur).dropHome u.cur key 8
        .next (u.answerS d (word u.me.pub))
    | .device => s.prot va

/-! ## Acquires (R85 to R89, R265) -/

/-- The sequence from which slot k replays writer w: its record, or the writer's barrier mark (R85). -/
def State.replayFrom (s : State) (k w : Nat) : Nat :=
  (((s.slot k).replays.find? fun r => r.1 == w).map (·.2)).getD (s.slot w).mark

/-- The record of a replay, most recently acquired first, of at most 16 writers (R85). -/
def Slot.recordReplay (t : Slot) (w q : Nat) : Slot :=
  { t with replays := ((w, q) :: t.replays.filter fun r => r.1 != w).take 16 }

/-- Replays writer w up to q into slot k's view; with an entry already raked, forces the writer home and drops the
slot's lines instead (R86). -/
def State.replay (s : State) (k w q : Nat) : State :=
  let start := s.replayFrom k w
  let n := gap 44 q start
  let es := (s.slot w).log.entries.filter fun e => 0 < gap 44 e.seq start && gap 44 e.seq start ≤ n
  let s :=
    if 2 ^ 43 ≤ n then s
    else if es.length < n then
      (s.crystWhere w fun e => reached q e.seq).dropLines (coreOf k) fun l => l.slot == slotNo k
    else (es.filter fun e => e.state != .voided).foldl (fun s e => s.replayEntry k w e) s
  s.modSlot k fun t => t.recordReplay w q

/-- An acquire ends: the flag word of an ACQF goes to its register (R86, R87). -/
def State.acquired (s : State) (flag : Option (SReg × Word)) (waits : Bool) : State :=
  match flag with
  | none => s.afterWait waits
  | some f => s.setOrAnswerS waits f.1 f.2

/-- An acquire has read writer w's release cell, and consumes its poison (R432). -/
def State.readCell (s : State) (w : Nat) : State := if (s.slot w).pubBad then s.setChk s.cur 1 else s

/-- Acquires writer w up to q for the issuing slot: PROT for a column outside the partition, nothing for its own id,
poison from the release cell of a lost column (R433), else the wait and the replay (R86), which waits for a line that it
drops (R80); an ACQF has read a flag word, which goes to its register. -/
def State.acquire (s : State) (va : Word) (w q : Nat) (flag : Option (SReg × Word)) (waits : Bool) : Result :=
  if s.curPart.hasCol (lcolOf w) = false then s.prot va
  else if w = s.cur then .next (s.acquired flag waits)
  else if s.lost.contains (lcolOf w) then
    .next (((s.setChk s.cur 1).metLost (colBase (lcolOf w))).acquired flag true)
  else if reached (s.slot w).pub q then
    (let u := s.replay s.cur w q
     if u.linesWait (coreOf s.cur) then
       .next (({ u with cores := s.cores }.modMe fun t => { t with replays := s.me.replays }).sleep
         (.lines (flag.map Prod.snd)))
     else .next ((u.readCell w).acquired flag true))
  else .next (s.sleep (.published w q))

/-- ACQ (R86, R265). -/
def execAcq (a b : SReg) (s : State) : Result := s.acquire (s.rs a) (fld 0 20 (s.rs a)) (fld 0 44 (s.rs b)) none false

/-- The flag word of an ACQF that has read it, and waits for its writer's publication or for a line (R80, R86, R87). -/
def Slot.flagRead (t : Slot) : Option Word :=
  match t.redo with
  | some r => (match r.cond with
      | .published w q => some (word (w % 2 ^ 20 * 2 ^ 44 + q % 2 ^ 44))
      | .flagSeen f => some f
      | .lines seen => seen
      | _ => none)
  | none => none

/-- ACQ of what a flag word names; the word goes to sd (R87). -/
def State.acquireFlag (s : State) (d : SReg) (va f : Word) (waits : Bool) : Result :=
  s.acquire va (fld 44 20 f) (fld 0 44 f) (some (d, f)) waits

/-- ACQF (R87, R265): the flag word at its home, past log and view; a word that has been read stays read while its
writer's publication is awaited. Its read is no load of the access ordinal, DESIGN CHOICE (R93, log 69). -/
def execAcqf (d a b : SReg) (s : State) : Result :=
  let va := s.rs a
  let q := fld 0 44 (s.rs b)
  match s.me.flagRead with
  | some f => s.acquireFlag d va f true
  | none =>
    s.orTrap (s.flagAt va .load) fun t =>
      match s.answer va t 8 .load with
      | .trap code detail => s.raise code detail va
      | .stall => .next (s.sleepAt va)
      | .at key _ _ w =>
        let f := s.quadAt key
        if flagOk f q then
          (if s.curPart.hasCol (fld 49 15 f) = false then s.prot va
           else (((s.usedPage va .load w).consume key 8).stallAt t 8).acquireFlag d va f (!s.isLocal t))
        else .next (((s.usedPage va .load w).stallAt t 8).sleep (.flagWord key q))
      | _ =>
        let (bs, u) := s.freeBytes 8
        .next (((u.setChk s.cur 1).metLost va).answerS d (word (leNat bs)))

/-- The address of a view line overlaps the range of n bytes from base in {region, offset}, without wrap (R266). -/
def lineInRange (base n : Nat) (lineVa : Nat) : Bool := n != 0 && base < lineVa + 64 && lineVa < min (base + n) (2 ^ 42)

/-- The addresses by which ACQR matches a line: a scratchpad's by its home through every window, another's by the
virtual line of its first byte (R266). -/
def ViewLine.addresses (l : ViewLine) : List Nat :=
  match homeOf (l.line * 64) with
  | .spad core o =>
    (upFrom 0 8).map fun w => 2 ^ 41 + core / 8 * 2 ^ 26 + 0x2000000 + core % 8 * 0x100000 + w * 0x20000 + o
  | _ => [fld 0 42 l.vline]

/-- Drops the lines of the issuing slot's view that a test names: the slot sleeps where that forces an entry home, until
it is home; `go` finishes the instruction, which may have waited (R80, R88, R94). -/
def State.clearLines (s : State) (p : ViewLine → Bool) (go : Bool → State → State) : State :=
  let ls := s.myCore.view.filter fun l => l.slot == slotNo s.cur && p l
  let u := s.dropLines (coreOf s.cur) fun l => l.slot == slotNo s.cur && p l
  if ls.any u.dropStalls then { u with cores := s.cores }.sleep (.lines none)
  else go (ls.any s.dropForces) u

/-- The line meets the range of n bytes from base (R266). -/
def ViewLine.meets (l : ViewLine) (base n : Nat) : Bool := l.addresses.any (lineInRange base n)

/-- ACQR (R88, R266). -/
def execAcqr (a b : SReg) (s : State) : Result :=
  .next (s.clearLines (fun l => l.meets (fld 0 42 (s.rs a)) (s.rs b).toNat) fun w u => u.afterWait w)

/-- ACQR.ALL (R266). -/
def execAcqrAll (s : State) : Result := .next (s.clearLines (fun _ => true) fun w u => u.afterWait w)

/-! ## Fences (R93, R267) -/

/-- A fence token: scope and access ordinal (R93). -/
def tokenOf (scope ordinal : Nat) : Word := word (scope * 2 ^ 62 + ordinal % 2 ^ 44)

/-- FENCE.CORE (R267). -/
def execFenceCore (d : SReg) (s : State) : Result := .next (s.setS 1 d (tokenOf 0 s.me.ordinal))
/-- FENCE.DEVICE (R267). -/
def execFenceDevice (d : SReg) (s : State) : Result := .next (s.setS 1 d (tokenOf 1 s.me.ordinal))
/-- FENCE.SYSTEM (R267). -/
def execFenceSystem (d : SReg) (s : State) : Result := .next (s.setS 1 d (tokenOf 2 s.me.ordinal))

/-- The entry's store issued before the fence of a token (R93). -/
def Entry.before (e : Entry) (tok : Word) : Bool :=
  0 < gap 44 (fld 0 44 tok) e.ord && gap 44 (fld 0 44 tok) e.ord ≤ 2 ^ 43

/-- A token that completes at once: scope 11, one aged by 2^43 accesses, and CORE scope, whose accesses have performed
once they have issued (R93, R267). -/
def Slot.tokenAtOnce (t : Slot) (tok : Word) : Bool :=
  fld 62 2 tok == 3 || fld 62 2 tok == 0 || 2 ^ 43 ≤ gap 44 t.ordinal (fld 0 44 tok)

/-- WAITF (R93): forces the stores before the fence home, and sleeps while one is not. -/
def execWaitf (a : SReg) (s : State) : Result :=
  let tok := s.rs a
  if s.me.tokenAtOnce tok then .next s
  else
    let s := s.crystWhere s.cur fun e => e.before tok
    if s.unsettled s.cur fun e => e.before tok then .next (s.hold (.fence tok)) else .next s

/-! ## The log (R79, R268, R269) -/

/-- The entry of a slot's log with a sequence. -/
def SlotLog.entry? (l : SlotLog) (q : Nat) : Option Entry := l.entries.find? fun e => e.seq == q

/-- RECLAIM never sleeps or traps (R79, R268). -/
def execReclaim (a : SReg) (s : State) : Result :=
  let q := fld 0 44 (s.rs a)
  .next (s.crystWhere s.cur fun e => e.seq != q && reached q e.seq)

/-- State number and reason of an entry (R269); an entry home before its release reads as ACCEPTED (R76). -/
def Entry.stat (pub : Nat) (e : Entry) : Nat × Nat :=
  let covered := reached pub e.seq
  match e.state with
  | .appended => (0, 0)
  | .sent => (1, 0)
  | .accepted => (if covered then 3 else 2, 0)
  | .crystallised => (if covered then 4 else 2, 0)
  | .refused r => (6, r)
  | .voided => (7, 0)

/-- State and reason of sequence q of a slot's log: RAKED when it is gone, NONE when the counter has not reached it
(R269). -/
def Slot.statOf (t : Slot) (q : Nat) : Nat × Nat :=
  match t.log.entry? q with
  | some e => e.stat t.pub
  | none => if reached t.log.seq q then (5, 0) else (8, 0)

/-- LOGQ.STAT (R269). -/
def execLogqStat (d a : SReg) (s : State) : Result :=
  let r := s.me.statOf (fld 0 44 (s.rs a))
  .next (s.setS 1 d (word (r.1 + r.2 * 2 ^ 8)))

/-- LOGQ.TAIL (R269). -/
def execLogqTail (d : SReg) (s : State) : Result := .next (s.setS 1 d (word s.me.log.seq))

/-- Settles a refused entry at supervisor level: sd 0, or 1 for an entry in another state, 2 for none (R269). What R81 has
put of it into the slot's view lines stays there, DESIGN CHOICE (R90, log 70). -/
def State.settleEntry (s : State) (st : EntryState) (d a : SReg) : Result :=
  let q := fld 0 44 (s.rs a)
  if s.me.sup = false then s.priv
  else
    let code := (s.me.statOf q).1
    if code = 6 then
      .next (((((s.modEntry s.cur q fun e => { e with state := st, trapDue := false }).settleForced s.cur).rake
        s.cur).pressure s.cur).setS 1 d 0)
    else .next (s.setS 1 d (if code = 8 then 2 else 1))

/-- LOGQ.VOID (R90, R269). -/
def execLogqVoid (d a : SReg) (s : State) : Result := s.settleEntry .voided d a
/-- LOGQ.RESEND (R90, R269). -/
def execLogqResend (d a : SReg) (s : State) : Result := s.settleEntry .sent d a

/-! ## Events of homes -/

/-- ENTRY_ACCEPTANCE: the home NI answers a sent entry (R76, R90). -/
def execEntryAcceptance (slot seq : Nat) (s : State) : Result :=
  match (s.slot slot).log.entry? seq with
  | some e => if e.state = .sent then .next ((s.acceptEntry slot e).pressure slot) else .next s
  | none => .next s

/-- CRYSTALLISATION: an accepted entry's bytes are written at home in its banks' order, and raking pressure goes on (R76 to
R78). -/
def execCrystallisation (slot seq : Nat) (s : State) : Result :=
  .next ((((s.crystEntry slot seq).settleForced slot).rake slot).pressure slot)

/-- ACQF_REREAD: a sleeping ACQF reads its flag word again, and goes on with a word that lets it (R87). -/
def execAcqfReread (slot : Nat) (s : State) : Result :=
  match (s.slot slot).cond with
  | .flagWord key _ => .next (if s.wouldSee slot key 8 then s.rereadFlag slot else s)
  | _ => .next s

/-- WALK_RETRY: an access behind a migrating page reads the entry again (R412), not before its partition has resumed, nor
before what came to its channel under repair before it (R421, R422, R444). -/
def execWalkRetry (slot : Nat) (s : State) : Result :=
  match (s.slot slot).status, (s.slot slot).cond with
  | .asleep, .migration _ => .next (if s.stillOut slot || !s.slotTurn slot then s else s.wake slot)
  | _, _ => .next s

/-- Slot k can take a STREFUSED: it has a task and is at a boundary, or sleeps in an instruction that holds its bundle
(R90, R340). -/
def State.atBoundary (s : State) (k : Nat) : Bool :=
  let t := s.slot k
  t.redo.isNone &&
    (match t.status with
     | .free => false
     | .ready => true
     | .asleep => t.cond.held)

/-- STREFUSED: the oldest refused entry not yet trapped is taken before the bundle at pc, and a slot that its core issues
passes a switch point (R90, R337, R339). -/
def execStrefused (slot : Nat) (s : State) : Result :=
  match (s.slot slot).dueRefusal with
  | some e =>
    if s.strefusedDue slot && s.atBoundary slot then
      (let reason := match e.state with
         | .refused r => r
         | _ => 0
       let s := (s.modEntry slot e.seq fun e => { e with trapDue := false }).modSlot slot fun t => { t with bar := .away }
       let issued := (s.core (coreOf slot)).issuing = some (slotNo slot)
       let t := s.takeTrap slot (s.slot slot).pc 0x06 reason e.va (some e.seq)
       .next (if issued then t.switchPoint slot else t))
    else .next s
  | none => .next s

end Sys2Proof.Machine
end

