-- ==== Sys2Proof/Machine/Messages.lean ====
section
/-! DEFINITION. EPN, SEND, RECV, POLL and DEQ, and the delivery of messages (R274 to R284). -/

namespace Sys2Proof.Machine

/-- EPN: the issuer's own endpoint (R274). -/
def execEpn (d : SReg) (s : State) : Result := .next (s.setS 1 d s.me.endpoint)

/-- EPN.C: the endpoint of a task of the issuer's group, or all ones outside its extents (R274). -/
def execEpnC (d a : SReg) (s : State) : Result :=
  .next (s.setS 1 d (if s.me.inExtents (s.rs a) then s.me.endpointAt (s.rs a) else 0xFFFFFFFFFFFFFFFF))

/-- EPN.L: the launch endpoint of the issuer's partition (R274). -/
def execEpnL (d : SReg) (s : State) : Result := .next (s.setS 1 d (word (s.me.partNo * 2 ^ 38)))

/-! ## SEND (R275) -/

/-- Messages of a core not yet delivered, oldest first. -/
def State.sendQueue (s : State) (core : Nat) : List Msg := s.msgs.filter fun m => coreOf m.src == core

/-- Streets to an endpoint's cluster from a column, and whether the path rides channel 1 (R276, R381). -/
def State.pathTo (s : State) (lcol : Nat) (e : Word) : Nat × Bool :=
  match s.part? (epPart e) with
  | some p =>
    if epTgid e ≠ 0 ∧ p.hasCluster (p.epCluster e) then
      let r := s.mc.route (s.place lcol).1 (s.place (p.epCluster e * 24 + epBlock e)).1
      (r.1.length, r.2)
    else (0, false)
  | none => (0, false)

/-- SEND (R275). -/
def execSend (d a b : SReg) (len : BitVec 3) (s : State) : Result :=
  let ep := s.rs b
  let n := 32 * (len.toNat + 1)
  if s.epAllowed s.me ep = false then s.prot ep
  else
    s.orTrap (s.localRange (s.rs a) 32 n [3]) fun o =>
      let payload := s.spadBytes o n
      let s := (s.consume (spadKey (coreOf s.cur) o) n).stallFor (upFrom o n)
      if 16 ≤ (s.sendQueue (coreOf s.cur)).length then .next (s.setS 1 d 0)
      else
        let no := nextId s.me.counters.msgno
        let path := s.pathTo (lcolOf s.cur) ep
        let m : Msg := { src := s.cur, srcEp := s.me.endpoint, dst := ep, msgno := no, payload := payload, stubs := 0,
                         hops := path.1, vc1 := path.2, born := s.myCore.now + 2 }
        let s := s.modMe fun t => { t with counters := { t.counters with msgno := no } }
        .next ({ s with msgs := s.msgs ++ [m] }.setS 1 d (word no))

/-! ## Records (R279) -/

/-- A message record. -/
def Msg.record (m : Msg) (lat : Nat) : List Byte :=
  bytesOf 2 (1 + 256 * ((m.payload.length + 32) / 32)) ++ bytesOf 2 0 ++ bytesOf 4 m.msgno ++ bytesOf 8 m.srcEp.toNat ++
    bytesOf 4 (min m.hops 255 + 256 * m.stubs + 65536 * m.vc1.toNat) ++ bytesOf 4 (min lat (2 ^ 32 - 1)) ++ bytesOf 8 0 ++
    m.payload

/-- An undeliverable notice. -/
def Msg.notice (m : Msg) (reason : Nat) : List Byte :=
  bytesOf 4 (7 + 256 * reason) ++ bytesOf 4 m.msgno ++ bytesOf 8 m.dst.toNat ++ m.payload.take 16

/-- What becomes of a message (R276). -/
inductive Fate where
  /-- to another device -/
  | away
  /-- to a launch endpoint -/
  | launch
  | slot (k : Nat)
  | back (reason : Nat)
  deriving DecidableEq, Repr

/-- Where a message goes as the machine stands (R276, R281, R282). -/
def State.fate (s : State) (m : Msg) : Fate :=
  if s.isHere (devField m.dst) = false then .away
  else if epTgid m.dst = 0 then (if m.payload.length = 64 then .launch else .back 4)
  else
    match s.slotOfEp m.dst with
    | none => .back (if s.epQueued m.dst then 6 else 1)
    | some k =>
      if 4 < m.stubs then .back 2
      else if (s.slot k).inboxOn = false then .back 5
      else if (s.post k (m.record 0) none true).isNone then .back 3
      else .slot k

/-- The logical cluster to which packets for an endpoint of this device go. -/
def State.clusterTo (s : State) (e : Word) : Option Nat :=
  if s.isHere (devField e) = false ∨ epTgid e = 0 then none else (s.part? (epPart e)).map fun p => p.epCluster e

/-- The launch endpoint an endpoint names, as device and partition; its other bits are ignored (R274). -/
def State.launchTo (s : State) (e : Word) : Option (Nat × Nat) :=
  if epTgid e ≠ 0 then none
  else some (if s.isHere (devField e) then 0 else devField e, epPart e)

/-- Messages of one slot take one way: to one endpoint, or to one cluster, with whose crossing goes their channel (R276,
R380). -/
def State.sameWay (s : State) (x m : Msg) : Bool :=
  x.src == m.src && (x.dst == m.dst || ((s.clusterTo m.dst).isSome && s.clusterTo x.dst == s.clusterTo m.dst) ||
    ((s.launchTo m.dst).isSome && s.launchTo x.dst == s.launchTo m.dst))

/-- The message has been released, it is the oldest of its sender on its way, none is under way from before the tables were
rewritten, and its partition is on the wafer (R192, R276, R380, R420). -/
def State.foremost (s : State) (m : Msg) : Bool :=
  m.born ≤ s.time && (m.old || !s.msgs.any Msg.old) && !s.isOut m.src && (s.msgs.find? fun x => s.sameWay x m) == some m

/-- The message leaves the streets. -/
def State.dropMsg (s : State) (m : Msg) : State := { s with msgs := s.msgs.filter fun x => x != m }

/-- The n-th message of a core's queue. -/
def State.msgAt (s : State) (core n : Nat) : Option Msg := (s.sendQueue core)[n]?

/-- MESSAGE_DELIVERY: a message reaches its inbox, the launch endpoint or another device; the latency is a measurement
without bound (R276, R381). -/
def execMessageDelivery (core index lat : Nat) (s : State) : Result :=
  match s.msgAt core index with
  | none => .next s
  | some m =>
    if s.foremost m = false then .next s
    else
      match s.fate m with
      | .away => .next (s.dropMsg m)
      | .launch =>
        .next ((s.dropMsg m).modPart (epPart m.dst) fun p =>
          { p with launches := p.launches ++ [{ bytes := m.payload, sender := some (m.src, m.srcEp, m.msgno) }] })
      | .slot k =>
        match (s.dropMsg m).post k (m.record lat) none true with
        | some t => .next t
        | none => .next s
      | .back _ => .next s

/-- A record goes to the task that earned it; none where its slot has no room (R276, R281). -/
def State.postTo (s : State) (k : Nat) (ep : Word) (bs : List Byte) : Option State :=
  if (s.slot k).status != .free && (s.slot k).endpoint == ep then s.post k bs none false else some s

/-- UNDELIVERABLE_NOTICE: a message returns to its sender as a notice (R276, R279). Why another device returned one is
free (log 11). -/
def execUndeliverableNotice (core index : Nat) (s : State) : Result :=
  match s.msgAt core index with
  | none => .next s
  | some m =>
    if s.foremost m = false then .next s
    else
      let back := fun (s : State) (r : Nat) =>
        match (s.dropMsg m).postTo m.src m.srcEp (m.notice r) with
        | some t => Host.Outcome.next t
        | none => .next s
      match s.fate m with
      | .back r => back s r
      | .away => back { s with fresh := s.fresh + 1 } (1 + (Config.freeByte (s.fresh * 2 ^ 64)).toNat % 6)
      | _ => .next s

/-! ## RECV, POLL and DEQ (R283, R284) -/

/-- Scratchpad offset of the record at the head. -/
def Slot.headOffset (t : Slot) : Word := word (t.ringBase + t.ringHead % t.ringSize)

/-- RECV (R283). -/
def execRecv (d : SReg) (s : State) : Result :=
  if s.me.inboxOn = false then s.illegal
  else if s.me.ringHeld = 0 then .next (s.hold .record)
  else .next (s.setS 1 d s.me.headOffset)

/-- POLL (R283). -/
def execPoll (d : SReg) (s : State) : Result :=
  if s.me.inboxOn = false then s.illegal
  else .next (s.setS 1 d (if s.me.ringHeld = 0 then 0xFFFFFFFFFFFFFFFF else s.me.headOffset))

/-- Length of a record with this kind and units byte (R278, R284). -/
def recordLength (kind units : Nat) : Nat := if kind = 1 then 32 * max units 1 else 32

/-- MSGLAT from a message record (R280). -/
def msglatOf (r : List Byte) : Word :=
  word (recNat 0x14 4 r + recNat 0x10 1 r * 2 ^ 32 + recNat 0x11 1 r % 16 * 2 ^ 40 + recNat 0x12 1 r % 2 * 2 ^ 44)

/-- The view lines that DEQ of a record drops: those over what a copy wrote on this device (R94, R284). -/
def State.overCopy (s : State) (kind : Nat) (r : List Byte) (l : ViewLine) : Bool :=
  kind == 2 && s.isHere (devField (word (recNat 0x10 8 r))) && l.meets (recNat 0x10 8 r % 2 ^ 42) (recNat 8 8 r)

/-- What DEQ does for the record it consumes besides, by kind (R165, R284). -/
def State.takeRecord (s : State) (kind : Nat) (r : List Byte) : State :=
  let s := if kind = 1 then s.modMe fun t => t.modSys fun y => { y with msglat := msglatOf r } else s
  if slotNo s.cur = 3 ∧ 2 ≤ kind ∧ kind ≤ 5 ∧ recNat 3 1 r / 2 % 2 = 1 then
    s.modMe fun t => { t with charge := some (recNat 3 1 r / 16), charged := addKey (recNat 3 1 r / 16) t.charged }
  else s

/-- Scratchpad offsets of the 32 bytes of the record at the head. -/
def Slot.headBytes (t : Slot) : List Nat := (upFrom 0 32).map fun i => t.ringBase + (t.ringHead + i) % t.ringSize

/-- DEQ reads the record at the head, once: poisoned bytes mark the slot, and the access stalls as another does (R70,
R432). -/
def State.readRecord (s : State) : State :=
  let os := s.me.headBytes
  if s.me.redo.isSome then s
  else (os.foldl (fun s o => s.consume (spadKey (coreOf s.cur) o) 1) s).stallFor os

/-- DEQ (R284). -/
def execDeq (d : SReg) (s : State) : Result :=
  if s.me.inboxOn = false then s.illegal
  else if s.me.ringHeld = 0 then .next (s.setS 1 d 0xFFFFFFFFFFFFFFFF)
  else
    let r := s.ringBytes s.cur s.me.ringHead 32
    let kind := recNat 0 1 r
    let n := min (recordLength kind (recNat 1 1 r)) s.me.ringHeld
    let s := s.readRecord
    .next (s.clearLines (s.overCopy kind r) fun waits s =>
      let s := s.takeRecord kind r
      ((s.modMe fun t => t.setHead (t.ringAdd t.ringHead n)).refillAll s.cur).setOrAnswerS waits d (word kind))

end Sys2Proof.Machine
end

