-- ==== Sys2Proof/Machine/Copies.lean ====
section
/-! DEFINITION. CPY, CPYQ and the copy unit (R285 to R291, R372). -/

namespace Sys2Proof.Machine

/-! ## CPY (R285, R286) -/

/-- A range of an address space's own part: it stays in HBM space, a column's user part or a column's scratchpads. -/
def rangeFits (va : Word) (len : Nat) : Bool :=
  if region va = false then offset va + len ≤ 2 ^ 41
  else offset va % 2 ^ 26 + len ≤ (if offset va % 2 ^ 26 < 0x1800000 then 0x1800000 else 0x2800000)

/-- The source of a copy: the offset in the own scratchpad, or none for memory behind an NI (R286). -/
def State.copySource (s : State) (va : Word) (len : Nat) : Check (Option Nat) :=
  match s.myTarget va with
  | some (.spad core _ o) => if core = coreOf s.cur then .ok (some o) else .error (0x04, 0, va)
  | some (.col lcol _) => if lcol = lcolOf s.cur ∧ rangeFits va len then .ok none else .error (0x04, 0, va)
  | some .hbm => if rangeFits va len then .ok none else .error (0x04, 0, va)
  | _ => .error (0x04, 0, va)

/-- The destination of a copy (R286). -/
def State.copyDest (s : State) (va : Word) (len : Nat) : Check (Option Nat) :=
  match s.myTarget va with
  | none => .error (0x04, 0, va)
  | some (.spad core _ o) =>
    if core = coreOf s.cur then .ok (some o) else if rangeFits va len then .ok none else .error (0x04, 0, va)
  | some _ => if rangeFits va len then .ok none else .error (0x04, 0, va)

/-- An accumulator range of a copy: a byte offset, inside the 256 KiB (R286). -/
def accRange (a : Word) (len : Nat) : Check (Option Nat) :=
  if fld 0 18 a + len ≤ 0x40000 then .ok none else .error (0x04, 0, a)

/-- An own-scratchpad range stays in its window (R286). -/
def inWindow (o : Option Nat) (len : Nat) : Bool :=
  match o with
  | some o => o + len ≤ 0x20000
  | none => true

/-- The copy of a descriptor read at an address, once every check but the last of R286 has passed. -/
def State.checkCopy (s : State) (at_ : Word) (r : List Byte) : Check Copy :=
  let dst := word (recNat 0 8 r)
  let src := word (recNat 8 8 r)
  let len := recNat 0x10 4 r
  let flags := recNat 0x16 2 r
  let chunked := flags % 2 == 1
  let accs := flags / 2 % 2 == 1
  let accd := flags / 4 % 2 == 1
  let notify := word (recNat 0x18 8 r)
  if len < 32 ∨ 2 ^ 31 < len then .error (0x01, 0, s.ir)
  else if src.toNat % 32 ≠ 0 then .error (0x03, 0, src)
  else if dst.toNat % 32 ≠ 0 then .error (0x03, 0, dst)
  else if len % 32 ≠ 0 then .error (0x03, 0, at_)
  else
    match if accs then accRange src len else s.copySource src len with
    | .error e => .error e
    | .ok so =>
      match if accd then accRange dst len else s.copyDest dst len with
      | .error e => .error e
      | .ok d =>
        if inWindow so len = false then .error (0x03, 0, src)
        else if inWindow d len = false then .error (0x03, 0, dst)
        else if chunked && !(s.isHere (devField notify) && s.epAllowed s.me notify) then .error (0x04, 0, at_)
        else if (match so with
                 | some o => !s.me.permits [3] o len
                 | none => false) then .error (0x04, 0, src)
        else
          .ok { slot := s.cur, id := nextId s.me.counters.copyId, dst := dst, src := src, len := len,
                tag := recNat 0x14 2 r, chunked := chunked, accSrc := accs, accDst := accd, notify := notify,
                group := s.me.group, charged := !s.me.svc, done := [], posted := [], running := false, poison := false,
                notifyLost := false, resumed := false, orphan := false, due := s.myCore.now + 2,
                devmap := s.curPart.devmap, held := false }

/-- CPY (R285, R286). -/
def execCpy (d a : SReg) (s : State) : Result :=
  if s.me.inboxOn = false then s.illegal
  else
    s.orTrap (s.localRange (s.rs a) 32 32 [3]) fun o =>
      s.orTrap (s.checkCopy (s.rs a) (s.spadBytes o 32)) fun c =>
        let s := (s.consume (spadKey (coreOf s.cur) o) 32).stallFor (upFrom o 32)
        if 256 ≤ (s.copies.filter fun x => coreOf x.slot == coreOf s.cur).length then .next (s.setS 1 d 0)
        else
          let s := s.modMe fun t => { t with counters := { t.counters with copyId := c.id } }
          .next ({ s with copies := s.copies ++ [{ c with due := s.myCore.now + 2 }] }.setS 1 d (word c.id))

/-- The copy of a slot with a number, when it is in flight. -/
def State.copyOf (s : State) (k id : Nat) : Option Copy := s.copies.find? fun c => c.slot == k && c.id == id

/-- CPYQ (R291). -/
def execCpyq (d a : SReg) (s : State) : Result :=
  let id := fld 0 32 (s.rs a)
  .next (s.setS 1 d (if notIssued s.me.counters.copyId id then 0
    else match s.copyOf s.cur id with
      | some c => if c.running then 2 else 1
      | none => 3))

/-! ## Moving bytes (R287, R290) -/

/-- Where a piece's 32 bytes at an address lie, under the device map the copy was checked against; a scratchpad takes a
write as a remote store, and anything in a lost column ends the copy (R65, R290, R396). -/
def Copy.pieceEnd (c : Copy) (s : State) (va : Word) (kind : Kind) : PieceEnd :=
  let slot := c.slot
  match s.part? (s.partNoOf slot) with
  | none => .fault 0x02
  | some p =>
    match s.target { p with devmap := c.devmap } (coreOf slot) va with
    | none => .fault 0x02
    | some (.spad core _ o) =>
      if s.lost.contains (core / 8) then .fault 0x04
      else if kind = .store ∧ s.permitsOthers core [6] o 32 = false then .fault 0x02 else .at (spadKey core o) none
    | some (.col lcol _) => if s.lost.contains lcol then .fault 0x04 else pieceAt (s.translate (s.partNoOf slot) p va kind)
    | some .hbm => pieceAt (s.translate (s.partNoOf slot) p va kind)
    | some (.device _) => .far

/-- The end of a piece in the accumulator store of the issuer's block. -/
def Copy.accEnd (c : Copy) (s : State) (a : Word) (o : Nat) : PieceEnd :=
  if s.lost.contains (lcolOf c.slot) then .fault 0x04 else .at (accKey (lcolOf c.slot) (fld 0 18 a + o)) none

/-- The two ends of the piece at an offset of a copy. -/
def Copy.source (c : Copy) (s : State) (o : Nat) : PieceEnd :=
  if c.accSrc then c.accEnd s c.src o else c.pieceEnd s (c.src + word o) .load
def Copy.target (c : Copy) (s : State) (o : Nat) : PieceEnd :=
  if c.accDst then c.accEnd s c.dst o else c.pieceEnd s (c.dst + word o) .store

/-- Under whose journal a copy writes (R162, R165); one that outlived its task keeps the slot's place. -/
def Copy.writer (c : Copy) (s : State) : Option Writer :=
  c.group.map fun g => (s.partNoOf c.slot, g, if c.orphan then c.slot else s.taskOf c.slot)

/-- The walk of a piece's end takes its bits (R410). -/
def State.usedFor (s : State) (slot : Nat) (va : Word) (kind : Kind) : Option Walk → State
  | some w => s.usePage (s.partNoOf slot) va kind w
  | none => s

/-- The other half of a piece's line belongs to the copy and is at home too, so the line has been covered by two aligned
pieces (R432). -/
def Copy.covers (c : Copy) (key o : Nat) : Bool :=
  let other := if key % 64 = 0 then o + 32 else o - 32
  (key % 64 = 0 || 32 ≤ o) && other < c.len && (other / 4096 == o / 4096 && other < o || c.done.contains (other / 4096))

/-- Changes a copy in flight. -/
def State.modCopy (s : State) (c : Copy) (f : Copy → Copy) : State :=
  { s with copies := updateIf (fun x => x.slot == c.slot && x.id == c.id) f s.copies }

/-- Moves one piece whose ends are known: raw bytes, whatever their poison (R67, R290). -/
def State.movePiece (s : State) (c : Copy) (o : Nat) (src dst : PieceEnd) : State :=
  match src with
  | .at sk sw =>
    let bs := s.homeBytes sk 32
    let bad := s.isBad sk
    let s := s.usedFor c.slot (c.src + word o) .load sw
    let s :=
      match dst with
      | .at dk dw =>
        let s := (s.homeWrite (c.writer s) dk bs).usedFor c.slot (c.dst + word o) .store dw
        if c.covers dk o then s.clearPoison (dk / 64 * 64) 64 else s
      | _ => s
    if bad then
      (let s := s.modCopy c fun x => { x with poison := true }
       if c.orphan then s else s.setChk c.slot 1)
    else s
  | _ => s

/-- How a chunk's move ended. -/
inductive Moved where
  | whole
  /-- pieces moved, and the fault code of the next -/
  | fault (pieces code : Nat)
  | stall
  deriving DecidableEq, Repr

/-- Moves n pieces from offset o. -/
def State.movePieces (s : State) (c : Copy) (o : Nat) : Nat → Nat → State × Moved
  | 0, _ => (s, .whole)
  | n + 1, i =>
    match c.source s (o + 32 * i), c.target s (o + 32 * i) with
    | .fault e, _ => (s, .fault i e)
    | _, .fault e => (s, .fault i e)
    | .stall, _ => (s, .stall)
    | _, .stall => (s, .stall)
    | a, b => (s.movePiece c (o + 32 * i) a b).movePieces c o n (i + 1)

/-- Bytes of chunk j of a copy (R288). -/
def Copy.chunkLen (c : Copy) (j : Nat) : Nat := min 4096 (c.len - 4096 * j)

/-- Chunks of a copy. -/
def Copy.chunks (c : Copy) : Nat := (c.len + 4095) / 4096

/-- Moves chunk j. -/
def State.moveChunk (s : State) (c : Copy) (j : Nat) : State × Moved :=
  s.movePieces c (4096 * j) (c.chunkLen j / 32) 0

/-- The first chunk of a copy not yet at home. -/
def Copy.next (c : Copy) : Option Nat := (upFrom 0 c.chunks).find? fun j => !c.done.contains j

/-! ## Records (R288, R289) -/

/-- The chunk record of chunk j. -/
def Copy.chunkRecord (c : Copy) (j : Nat) : List Byte :=
  bytesOf 4 (3 + workFlags c.group c.charged (if j + 1 = c.chunks then 1 else 0) * 2 ^ 24) ++ bytesOf 4 c.id ++
    bytesOf 8 (4096 * j) ++ bytesOf 8 (c.dst + word (4096 * j)).toNat ++ bytesOf 4 (c.chunkLen j) ++ bytesOf 2 c.tag ++
    bytesOf 2 0

/-- The completion record (R289). -/
def Copy.completion (c : Copy) (fault bytes : Nat) : List Byte :=
  let flags := workFlags c.group c.charged (c.poison.toNat * 8 + c.notifyLost.toNat * 4 + c.resumed.toNat)
  bytesOf 4 (2 + (if fault = 0 then 0 else 1) * 2 ^ 8 + fault * 2 ^ 16 + flags * 2 ^ 24) ++ bytesOf 4 c.id ++ bytesOf 8 bytes ++
    bytesOf 8 c.dst.toNat ++ bytesOf 2 c.tag ++ bytesOf 6 0

/-- Posts a chunk record to the notify endpoint: discarded, and notify-lost set, where it cannot be delivered; none
where it is held (R281, R282, R288). -/
def State.postChunk (s : State) (c : Copy) (j : Nat) : Option State :=
  let lost := s.modCopy c fun x => { x with notifyLost := true }
  if epTgid c.notify = 0 then some lost
  else
    match s.slotOfEp c.notify with
    | none => some lost
    | some k =>
      if (s.slot k).inboxOn = false then some lost else s.post k (c.chunkRecord j) c.group false

/-- Another copy of the block stands behind a record for which there is no room (R281). -/
def State.unitHeld (s : State) (c : Copy) : Bool :=
  s.copies.any fun x => x.held && lcolOf x.slot == lcolOf c.slot && !(x.slot == c.slot && x.id == c.id)

/-- The copy unit can work on a copy: it has left its core, its partition is on the wafer, and no record stands before it
(R192, R281, R372). -/
def State.unitFree (s : State) (c : Copy) : Bool := c.due ≤ s.time && !s.stillOut c.slot && !s.unitHeld c

/-- A copy of a block's accumulator store reads or writes it between two chunk additions of a running job (R313, R320). -/
def State.atCells (s : State) (c : Copy) : State :=
  if c.accSrc || c.accDst then s.betweenChunks (fun j => lcolOf j.slot == lcolOf c.slot) c.accDst else s

/-- The page of a copy's source that lies n pages ahead of a chunk, and inside the copy. -/
def Copy.ahead (c : Copy) (j n : Nat) : Option Word :=
  let a := c.src + word (4096 * j)
  let va := a - word (a.toNat % 65536) + word (65536 * n)
  if (va - c.src).toNat < c.len then some va else none

/-- The copy unit's readahead: it translates at most two pages ahead of the read point, how many is free, and each hint
that finds no page adds 1 to the issuer's DROPHINT (R410, R414; log 73). -/
def State.readAhead (s : State) (c : Copy) (j : Nat) : State :=
  if c.accSrc then s
  else
    let n := (Config.freeByte (s.fresh * 2 ^ 64 + 2 ^ 60)).toNat % 3
    let drops := ((upFrom 1 n).filterMap (c.ahead j)).filter fun va =>
      match c.pieceEnd s va .hint with
      | .fault _ | .stall => true
      | _ => false
    let s := { s with fresh := s.fresh + 1 }
    if c.orphan then s else drops.foldl (fun s _ => s.modSlot c.slot fun t => t.land .dropped) s

/-- CHUNK_RECORD: a chunk of a copy has come home; its record is posted when the copy asks for records, once for each chunk
(R287, R288, log 73). -/
def execChunkRecord (slot id chunk : Nat) (s : State) : Result :=
  match s.copyOf slot id with
  | none => .next s
  | some c =>
    if c.chunks ≤ chunk ∨ c.done.contains chunk ∨ s.unitFree c = false then .next s
    else
      match ((s.atCells c).readAhead c chunk).moveChunk c chunk with
      | (t, .whole) =>
        let t := t.modCopy c fun x => { x with done := addKey chunk x.done, running := true, held := false }
        if c.chunked && !c.posted.contains chunk then
          (match (t.modCopy c fun x => { x with posted := addKey chunk x.posted }).postChunk c chunk with
           | some u => .next u
           | none => .next (s.modCopy c fun x => { x with held := true }))
        else .next t
      | _ => .next s

/-- The lost columns at the ends of a copy. -/
def Copy.lostEnds (c : Copy) (s : State) : List Nat :=
  let colAt := fun (acc : Bool) (a : Word) =>
    if acc then some (lcolOf c.slot)
    else if s.isHere (devField a) = false then none
    else if region a then some (offset a / 2 ^ 26)
    else if offset a < 0x100000 then some (lcolOf c.slot)
    else none
  ((colAt c.accSrc c.src).toList ++ (colAt c.accDst c.dst).toList).filter fun x => s.lost.contains x

/-- A lost column ended a copy: collost in the members of its group (R159, R290). -/
def State.copyLost (s : State) (c : Copy) : State :=
  match c.group with
  | some g => s.loseCols (s.partNoOf c.slot) g (c.lostEnds s)
  | none => s

/-- Posts a copy's completion and ends it, unless the record is held; what a killed task's copy would report is
discarded (R40, R281, R289). -/
def State.finishCopy (s : State) (slot id fault bytes : Nat) : Option State :=
  match s.copyOf slot id with
  | none => none
  | some c =>
    let s := { s with copies := s.copies.filter fun x => !(x.slot == slot && x.id == id) }
    let s := if fault = 4 then s.copyLost c else s
    if c.orphan then some s else s.post slot (c.completion fault bytes) c.group false

/-- A copy that ends, or whose completion its unit holds (R281). -/
def State.endCopy (s : State) (c : Copy) (t : State) (fault bytes : Nat) : State :=
  (t.finishCopy c.slot c.id fault bytes).getD (s.modCopy c fun x => { x with held := true })

/-- The fault code another device ended a copy with; 0 where it has not (R289, R290). It is free (log 36). -/
def deviceFault (b : Byte) : Nat := [0, 1, 2, 4, 5].getD (b.toNat % 5) 0

/-- The end of a copy whose chunk j goes to another device or comes from one: that device, or the way to it, may have
ended it with a fault, after any number of the chunk's pieces (R289, R290, log 36). -/
def State.finishAway (s : State) (c : Copy) (j : Nat) : State :=
  let e := deviceFault (Config.freeByte (s.fresh * 2 ^ 64))
  let n := (Config.freeByte (s.fresh * 2 ^ 64 + 1)).toNat % (c.chunkLen j / 32)
  let s := { s with fresh := s.fresh + 1 }
  let t := (s.movePieces c (4096 * j) n 0).1
  if e = 0 then s else s.endCopy c t e (4096 * j + 32 * n)

/-- COPY_COMPLETION: every chunk is at home, or the first chunk that is not meets a fault (R289, R290). -/
def execCopyCompletion (slot id : Nat) (s : State) : Result :=
  match s.copyOf slot id with
  | none => .next s
  | some c =>
    if s.unitFree c = false then .next s
    else
      match c.next with
      | none => .next (s.endCopy c s 0 c.len)
      | some j =>
        match (s.atCells c).moveChunk c j with
        | (t, .fault n e) => .next (s.endCopy c t e (4096 * j + 32 * n))
        | _ => .next (if c.source s (4096 * j) = .far ∨ c.target s (4096 * j) = .far then s.finishAway c j else s)

end Sys2Proof.Machine
end

