-- ==== Sys2Proof/Machine/Hash.lean ====
section
/-! DEFINITION. SHA3-256 (FIPS 202), by which the MC extends its measurements (R402). -/

namespace Sys2Proof.Machine

/-- A lane of the Keccak state; lane x + 5 y of the 25. -/
abbrev Lane := BitVec 64

/-- Lane (x, y), with x and y taken modulo 5. -/
def laneAt (a : List Lane) (x y : Nat) : Lane := a.getD (x % 5 + 5 * (y % 5)) 0

/-- Builds the 25 lanes. -/
def lanesBy (f : Nat → Nat → Lane) : List Lane := (upFrom 0 25).map fun i => f (i % 5) (i / 5)

/-- Rotation offsets of the lanes. -/
def keccakOffsets : List Nat := [0, 1, 62, 28, 27, 36, 44, 6, 55, 20, 3, 10, 43, 25, 39, 41, 45, 15, 21, 8, 18, 2, 61, 56, 14]

/-- Round constants. -/
def keccakConstants : List Lane :=
  [0x1, 0x8082, 0x800000000000808A, 0x8000000080008000, 0x808B, 0x80000001, 0x8000000080008081,
   0x8000000000008009, 0x8A, 0x88, 0x80008009, 0x8000000A, 0x8000808B, 0x800000000000008B,
   0x8000000000008089, 0x8000000000008003, 0x8000000000008002, 0x8000000000000080, 0x800A,
   0x800000008000000A, 0x8000000080008081, 0x8000000000008080, 0x80000001, 0x8000000080008008]

/-- One round. -/
def keccakRound (a : List Lane) (rc : Lane) : List Lane :=
  let c := (upFrom 0 5).map fun x => (upFrom 0 5).foldl (fun l y => l ^^^ laneAt a x y) 0
  let d := (upFrom 0 5).map fun x => c.getD ((x + 4) % 5) 0 ^^^ (c.getD ((x + 1) % 5) 0).rotateLeft 1
  let t := lanesBy fun x y => laneAt a x y ^^^ d.getD x 0
  let b := lanesBy fun x y =>
    let u := (x + 3 * y) % 5
    (laneAt t u x).rotateLeft (keccakOffsets.getD (u + 5 * x) 0)
  lanesBy fun x y =>
    let v := laneAt b x y ^^^ (~~~ laneAt b (x + 1) y &&& laneAt b (x + 2) y)
    if x = 0 ∧ y = 0 then v ^^^ rc else v

/-- The permutation Keccak-f[1600]. -/
def keccakF (a : List Lane) : List Lane := keccakConstants.foldl keccakRound a

/-- The message padded to a whole number of 136-byte blocks. -/
def sha3Pad (m : List Byte) : List Byte :=
  let n := 136 - m.length % 136
  if n = 1 then m ++ [0x86] else m ++ (0x06 :: List.replicate (n - 2) 0) ++ [0x80]

/-- XORs one block into the state. -/
def absorbBlock (a : List Lane) (b : List Byte) : List Lane :=
  keccakF ((upFrom 0 25).map fun i =>
    if i < 17 then a.getD i 0 ^^^ BitVec.ofNat 64 (leNat ((b.drop (8 * i)).take 8)) else a.getD i 0)

/-- Absorbs n blocks. -/
def absorb (a : List Lane) : Nat → List Byte → List Lane
  | 0, _ => a
  | n + 1, m => absorb (absorbBlock a (m.take 136)) n (m.drop 136)

/-- SHA3-256: the 32 bytes of the digest. -/
def sha3 (m : List Byte) : List Byte :=
  let p := sha3Pad m
  ((absorb (List.replicate 25 0) (p.length / 136) p).take 4).flatMap fun l => bytesOf 8 l.toNat

/-- A measurement register's bytes, byte 0 lowest. -/
def digestBytes (d : BitVec 256) : List Byte := bytesOf 32 d.toNat

/-- M := SHA3-256(M ‖ SHA3-256(d)), from the digest of d (R402). -/
def extendWith (m : BitVec 256) (digest : List Byte) : BitVec 256 :=
  BitVec.ofNat 256 (leNat (sha3 (digestBytes m ++ digest)))

end Sys2Proof.Machine
end

