-- ==== Sys2Proof/Machine/Quarantine.lean ====
section
/-! DEFINITION. Stopping a partition's cores (R420), the harvest map and the measurements (R402, R442, R443), lost
columns (R433) and quarantine (R19, R35, R437). -/

namespace Sys2Proof.Machine

/-! ## Measurements and records -/

/-- Extends measurement register i with data d (R402). -/
def State.measure (s : State) (i : Nat) (d : List Byte) : State :=
  { s with mc := { s.mc with meas := modifyAt (fun m => extendWith m (sha3 d)) s.mc.meas i } }

/-- Physical rows of column x that the placer maps: the first 35 usable (R34). -/
def Mc.mappedRows (m : Mc) (x : Nat) : List Nat := (m.rowsUsable x).take 35

/-- The state of a physical cluster (R17, R442). -/
def Mc.clusterState (m : Mc) (i : Nat) : Nat :=
  let w := lookup 0 m.harvest i
  if fld 25 2 w = 3 ∨ i ∈ m.crossings then 3
  else if m.usable i = false then 2
  else if (m.mappedRows (i % 24)).contains (i / 24) then 0 else 1

/-- The harvest word of physical cluster i; zero above 863 (R442). -/
def Mc.harvestWord (m : Mc) (i : Nat) : Nat :=
  if 863 < i then 0
  else
    let w := lookup 0 m.harvest i
    fld 0 25 w + m.clusterState i * 2 ^ 25 + fld 27 1 w * 2 ^ 27

/-- A quarantine record (R443): number, reason, partition, column, time, old place and new place. -/
def quarRecord (n reason pn lcol time : Nat) (old : Nat × Nat) (kind : Nat) (new : Nat × Nat) : List Byte :=
  bytesOf 4 n ++ bytesOf 1 reason ++ bytesOf 1 pn ++ bytesOf 2 lcol ++ bytesOf 8 time ++ bytesOf 1 (old.1 % 24) ++
    bytesOf 1 (old.1 / 24) ++ bytesOf 1 old.2 ++ bytesOf 1 kind ++ bytesOf 1 (new.1 % 24) ++ bytesOf 1 (new.1 / 24) ++
    bytesOf 1 new.2 ++ bytesOf 9 0

/-! ## Stopping the cores (R97, R420) -/

/-- The slots of a partition that hold a task. -/
def State.tasksIn (s : State) (pn : Nat) : List Nat :=
  (s.slots.filter fun e => e.2.status != .free && s.partNoOf e.1 == pn).map (·.1)

/-- The cores of a partition that have state. -/
def State.coresIn (s : State) (pn : Nat) : List Nat :=
  (s.cores.filter fun e => (s.partAt (e.1 / 8)).map (·.1) == some pn).map (·.1)

/-- A slot whose instruction a stop abandons stays asleep at its bundle, and the instruction issues again afterwards; an
ACQ or ACQF keeps what it waits for (R373, R420). -/
def Slot.abandon (t : Slot) : Slot :=
  match t.redo, t.cond with
  | none, _ | some _, .published _ _ | some _, .flagWord _ _ => t
  | some r, _ => { t with status := .asleep, cond := .answer 0, redo := some { r with cond := .answer 0 } }

/-- A copy cut off: its chunks before the first that is not home stand, and it reads on from there (R372). -/
def Copy.cutOff (c : Copy) : Copy := { c with resumed := true, done := upFrom 0 ((c.next).getD c.chunks) }

/-- The running job of a block stops at a chunk boundary, which one is free (R313, R420; log 45). -/
def State.stopJob (s : State) (j : Job) : State :=
  let n := s.freeUpTo (j.total - j.chunks)
  let t := { s with fresh := s.fresh + 1 }.advanceJob j (j.chunks + n)
  { t with jobs := updateIf (fun x => x.slot == j.slot && x.id == j.id) (fun x => { x with resumed := true }) t.jobs }

/-- The view lines of a partition's cores go, each writer forced home first; a line whose entries wait for a home stays until
they are home (R80, R97; log 85). -/
def State.dropViews (s : State) (pn : Nat) : State :=
  (s.coresIn pn).foldl (fun s c =>
    let t := (s.core c).view.foldl (fun s l => l.writers.foldl (fun s w => s.crystWhere w.1 (l.records w.2)) s) s
    t.dropLines c fun l => !t.dropStalls l) s

/-- Steps 1 to 4 of R420: results land, instructions are abandoned and leave the NIs where they wait, views and replay records go, jobs stop at a chunk
boundary and copies where they stand. -/
def State.stopPart (s : State) (pn : Nat) : State :=
  let s := (s.tasksIn pn).foldl (fun s k => s.landAll k) s
  let s := s.dropViews pn
  let s := (s.tasksIn pn).foldl (fun s k => (s.unqueue k).modSlot k fun t => { t.abandon with replays := [] }) s
  let s := (s.jobs.filter fun j => s.partNoOf j.slot == pn && j.running).foldl State.stopJob s
  { s with copies := updateIf (fun c => s.partNoOf c.slot == pn) Copy.cutOff s.copies }

/-! ## Lost columns (R433) -/

/-- The selector of the part whose mask engine's work stood in a lost column is empty again (R150, R433). -/
def Layer.loseSelector (y : Layer) (lcol : Nat) : Layer :=
  { y with selectors := y.selectors.map fun e => if y.known.col0 + e.1 = lcol then (e.1, Selector.reset) else e }

/-- What a lost column's system region held is gone: logs, release cells, overflow areas, the column journal, the
rings of the layers at home there and the selectors of the parts (R433). -/
def State.loseRegion (s : State) (lcol : Nat) : State :=
  let s := (upFrom (lcol * 32) 32).foldl (fun s k =>
    if listed s.slots k then
      s.modSlot k fun t => { t with log := { t.log with entries := [] }, pub := 0, pubBad := false, spilled := [] }
    else s) s
  { s with journal := s.journal.filter fun r => journalOf r.line != 1000 + lcol * 16,
           parts := s.parts.map fun e => (e.1, { e.2 with layers := e.2.layers.map fun l =>
             if l.2.desc = [] then l
             else if l.2.known.col0 = lcol then (l.1, { Layer.reset with desc := l.2.desc })
             else (l.1, l.2.loseSelector lcol) }) }

/-- A column is declared lost. -/
def State.loseColumn (s : State) (lcol : Nat) : State :=
  match s.partAt lcol with
  | none => s
  | some (pn, _) => ({ s with lost := addKey lcol s.lost }.setCollost pn lcol).loseRegion lcol

/-- The zeroed memory of a column that takes a lost one's place (R437). -/
def State.zeroColumn (s : State) (lcol : Nat) : State :=
  let inside := fun (k : Nat) => decide (colKey lcol 0 ≤ k) && decide (k < colKey lcol 0 + 0x2000000)
  { s with mem := s.mem.filter fun e => !inside e.1, poison := s.poison.filter fun l => !inside (l * 64),
           lost := s.lost.filter fun c => c != lcol }

/-! ## A new place (R19, R35, R437) -/

/-- A physical block is good and not quarantined. -/
def Mc.goodBlock (m : Mc) (cl b : Nat) : Bool := !flag b (lookup 0 m.harvest cl) && !m.retired.contains (25 * cl + b)

/-- The spare block of the cluster a column stands in: a good block that none of the cluster's columns uses. -/
def State.spareBlock (s : State) (lcol : Nat) : Option Nat :=
  let cl := (s.place lcol).1
  let used := (upFrom (clusterOf lcol * 24) 24).map s.place
  (upFrom 0 25).find? fun b => s.mc.goodBlock cl b && !used.contains (cl, b)

/-- A spare cluster of the column's physical column, which no cluster has taken (R35). -/
def State.spareCluster (s : State) (lcol : Nat) : Option Nat :=
  let x := (s.place lcol).1 % 24
  let taken := s.mc.moved.map fun e => e.2 / 25
  (((s.mc.rowsUsable x).drop 35).map fun y => 24 * y + x).find? fun cl =>
    !taken.contains cl && !s.mc.crossings.contains cl && (upFrom 0 25).all fun b => !s.mc.retired.contains (25 * cl + b)

/-- Messages under way to the columns that moved follow a forwarding stub from the old place to the new (R381, R424). -/
def State.followStubs (s old : State) (cols : List Nat) : State :=
  { s with msgs := s.msgs.map fun (m : Msg) =>
      match s.slotOfEp m.dst with
      | some k =>
        if cols.contains (lcolOf k) then
          (let r := s.mc.route (old.place (lcolOf k)).1 (s.place (lcolOf k)).1
           { m with stubs := m.stubs + 1, hops := m.hops + r.1.length, vc1 := m.vc1 || r.2 })
        else m
      | none => m }

/-- The cores of columns that moved run on other silicon: margin and the counts toward a raise and toward a failing core
are those of a core new from bring-up; REPLAYS runs on (R439, R440, log 44). -/
def State.freshCores (s : State) (cols : List Nat) : State :=
  { s with cores := s.cores.map fun (e : Nat × Core) =>
      if cols.contains (e.1 / 8) then
        (e.1, { e.2 with margin := Core.reset.margin, consec := 0, consecPc := 0, armed := none, atZero := 0, failing := false })
      else e }

/-- Moves columns to physical blocks and retires the blocks they leave. -/
def State.moveColumns (s : State) (to_ : List (Nat × Nat)) (retire : List Nat) : State :=
  let cols := to_.map (·.1)
  let t := { s with mc := { s.mc with moved := to_.foldl (fun m (e : Nat × Nat) => insert e.2 m e.1) s.mc.moved,
                                      retired := s.mc.retired ++ retire } }
  (t.followStubs s cols).freshCores cols

/-- The MC may record the crossing of a cluster that is given up as dead, which the spec lets a quarantine step do and leaves
open when: a free value says (log 89). It then rewrites the tables, the streets emptied first: what is under way goes on as
they stood, and nothing newer arrives before it (R380). -/
def State.recordCrossing (s : State) (cl : Nat) : State :=
  let dead := (Config.freeByte (s.fresh * 2 ^ 64 + 2 ^ 59)).toNat % 2 == 1
  let s := { s with fresh := s.fresh + 1 }
  if dead then
    { s with mc := { s.mc with crossings := addKey cl s.mc.crossings }, msgs := s.msgs.map fun m => { m with old := true } }
  else s

/-- Writes a quarantine record, extends M2 and signals vector 2 (R400, R402, R437). -/
def State.recordQuar (s : State) (r : List Byte) : State :=
  ({ s with mc := { s.mc with qrecs := s.mc.qrecs ++ [r] } }.measure 2 r).signalAll 2

/-- The task of a group on a core given by logical cluster, block and core is live: queued, or started and not ended. -/
def State.liveOn (s : State) (p : Part) (g : Group) (cl b c : Nat) : Bool :=
  (p.footprint g).contains cl && b < g.blocksPer && c < g.coresPer &&
    (lookup 0 g.started cl ≤ b * g.coresPer + c ||
      (upFrom (((cl * 24 + b) * 8 + c) * 4) 4).any fun k => (s.slot k).status != .free && (s.slot k).tgid == g.tgid)

/-- Kills every task group that has a live task on a column, one that has yet to start there too (R437). -/
def State.killOnColumn (s : State) (pn lcol : Nat) : State :=
  match s.part? pn with
  | none => s
  | some p =>
    let here := fun (g : Group) => (upFrom 0 8).any fun c => s.liveOn p g (clusterOf lcol) (lcol % 24) c
    ((p.groups.filter here).map (·.tgid)).foldl (fun s t => s.killGroup pn t) s

/-- Quarantines one column (R437). A column for which there is no place keeps none, DESIGN CHOICE for the time after its
partition is destroyed, since no block is left for it; its block is not used again (log 44). -/
def State.quarantineCol (s : State) (pn lcol : Nat) : State :=
  let old := s.place lcol
  let wasLost := s.lost.contains lcol
  let reason := if wasLost then 2 else 1
  let n := s.mc.qrecs.length + 1
  let clean := fun (s : State) => if wasLost then s.zeroColumn lcol else s
  match s.spareBlock lcol with
  | some b =>
    ((clean s).moveColumns [(lcol, 25 * old.1 + b)] [25 * old.1 + old.2]).recordQuar
      (quarRecord n reason pn lcol s.time old 0 (old.1, b))
  | none =>
    match s.spareCluster lcol with
    | some cl =>
      let good := (upFrom 0 25).filter fun b => s.mc.goodBlock cl b
      let cols := upFrom (clusterOf lcol * 24) 24
      (((clean s).moveColumns (cols.map fun c => (c, 25 * cl + good.getD (c % 24) 0))
        ((upFrom 0 25).map fun b => 25 * old.1 + b)).recordCrossing old.1).recordQuar
        (quarRecord n reason pn lcol s.time old 1 (cl, good.getD (lcol % 24) 0))
    | none =>
      let t := s.killOnColumn pn lcol
      { t with lost := addKey lcol t.lost, mc := { t.mc with
          unplaced := addKey lcol t.mc.unplaced
          retired := t.mc.retired ++ [25 * old.1 + old.2] } }.recordQuar
        (quarRecord n reason pn lcol s.time old 2 (0, 0))

/-- The columns of a partition whose quarantine is due: lost ones, and those with a failing core (R437). -/
def State.dueCols (s : State) (pn : Nat) : List Nat :=
  let mine := fun (c : Nat) => (s.partAt c).map (·.1) == some pn
  let failing := (s.cores.filter fun e => e.2.failing).map fun e => e.1 / 8
  (failing.foldl (fun l c => addKey c l) s.lost).filter fun c => mine c && !s.mc.unplaced.contains c

/-- The partition has no live group. -/
def State.noGroups (s : State) (pn : Nat) : Bool := ((s.part? pn).map fun p => p.groups == []).getD true

/-- The quarantine step of a partition: each column that is due, unless it has moved with its cluster by then (R26,
R437). They are taken in ascending order of their logical numbers, so that of several in one cluster the lowest gets the
only spare block, DESIGN CHOICE, since the spec gives them no order (R19, log 44). -/
def State.quarantine (s : State) (pn : Nat) : State :=
  match s.dueCols pn with
  | [] => s
  | cols => cols.foldl (fun s c => if (s.dueCols pn).contains c then s.quarantineCol pn c else s) (s.stopPart pn)

end Sys2Proof.Machine
end

