-- ==== Sys2Proof/Machine/Phase.lean ====
section
/-! DEFINITION. The communication phase: TTLOAD, TSEND, TRECV, COMMEND, MTRX, and the flits between cores (R166 to R175,
R294 to R298). -/

namespace Sys2Proof.Machine

/-! ## The timetable (R168, R294) -/

/-- TTLOAD (R294). -/
def execTtload (a b : SReg) (s : State) : Result :=
  let first := fld 0 8 (s.rs b)
  let n := fld 8 8 (s.rs b) + 1
  if 256 < first + n then s.illegal
  else
    s.orTrap (s.localRange (s.rs a) 8 (8 * n) [3]) fun o =>
      let es := (upFrom 0 n).map fun i => (first + i, word (s.spadNum (o + 8 * i) 8))
      let s := (s.consume (spadKey (coreOf s.cur) o) (8 * n)).stallFor ((upFrom 0 n).map fun i => o + 8 * i)
      .next (s.modMyCore fun c => { c with timetable := es.foldl (fun m e => insert e.2 m e.1) c.timetable })

/-- Entry n of the issuing core's timetable. -/
def State.ttEntry (s : State) (n : Nat) : Word := lookup 0 s.myCore.timetable n

/-- The entry is a route (R168). -/
def isRoute (e : Word) : Bool := fld 62 2 e == 1
/-- The entry is a permutation entry that names a core of a cluster (R168, R298). -/
def isPerm (e : Word) : Bool := fld 62 2 e == 2 && fld 0 8 e ≤ 191

/-! ## Offsets -/

/-- The phase the issuing slot is in (R166). -/
def State.myPhase (s : State) : Option Phase :=
  match s.myCore.phase with
  | some p => if p.slot = s.cur then some p else none
  | none => none

/-- Offset of the cycle in which the issuing core stands (R167). -/
def State.myOffset (s : State) (p : Phase) : Nat := s.phaseOffset (coreOf s.cur) p.t0 s.myCore.now

/-- Wafer time of an offset on the issuing core. -/
def State.myTimeAt (s : State) (p : Phase) (o : Nat) : Nat := s.phaseTime (coreOf s.cur) p.t0 o

/-- Changes the phase of a core. -/
def State.modPhase (s : State) (core : Nat) (f : Phase → Phase) : State :=
  s.modCore core fun c => { c with phase := c.phase.map f }

/-- The issuing core waits until a wafer time; results and blocks in flight do not land meanwhile, DESIGN CHOICE, since the
spec says of stalls and replays only that they stop the pipeline (R169, R189, log 92). -/
def State.holdUntil (s : State) (w : Nat) : State := s.modMyCore fun c => { c with now := max c.now w }

/-- CHKINT bits of the phase (R158). -/
def ttcoll : Nat := 4
def ttmiss : Nat := 5
def ttlate : Nat := 6

/-! ## TSEND and TRECV (R169, R173, R295, R296) -/

/-- TSEND (R169, R295). The address a refused route is recorded with is free: the spec names none (log 11). -/
def execTsend (a b : SReg) (s : State) : Result :=
  let w := s.rs b
  let e := s.ttEntry (fld 0 8 w)
  let n := fld 8 8 w + 1
  let t := fld 16 20 w
  match s.myPhase with
  | none => s.illegal
  | some p =>
    if isRoute e = false then s.illegal
    else if s.curPart.hasCol (fld 0 15 e) = false then
      { s with fresh := s.fresh + 1 }.prot (word (leNat ((upFrom 0 8).map fun i => Config.freeByte (s.fresh * 2 ^ 64 + i))))
    else
      s.orTrap (s.localRange (s.rs a) 32 (32 * n) [3]) fun o =>
        if t < s.myOffset p ∨ t < p.sentEnd then .next (s.setChk s.cur ttlate)
        else
          let snd : Sending := { depart := s.myTimeAt p t, left := n, off := o,
                                 dst := fld 0 15 e * 8 + fld 15 3 e, port := fld 18 2 e, lane := fld 20 4 e, mtrx := none }
          .next ((s.modPhase (coreOf s.cur) fun p => { p with sends := p.sends ++ [snd], sentEnd := t + n }).holdUntil
            (s.myTimeAt p t))

/-- Offset past the last at which a window takes flits: its end, or the phase's (R296). -/
def Window.stops (w : Window) : Nat := min (w.opens + w.width) (2 ^ 20)

/-- The window still counts as open at an offset (R173, R296). -/
def Window.isOpen (w : Window) (o : Nat) : Bool := !w.closed && o < w.stops

/-- TRECV (R173, R296). -/
def execTrecv (a b : SReg) (s : State) : Result :=
  let w := s.rs b
  let o := fld 0 20 w
  let width := fld 20 16 w + 1
  let cap := fld 36 11 w + 1
  let port := fld 48 2 w
  match s.myPhase with
  | none => s.illegal
  | some p =>
    let live := p.windows.filter fun x => x.isOpen (s.myOffset p) && x.frag.isNone
    if live.any fun x => x.port == port && x.opens < o + width && o < x.opens + x.width then s.illegal
    else if 8 ≤ live.length then s.illegal
    else
      s.orTrap (s.localRange (s.rs a) 32 (32 * cap) [4]) fun base =>
        if o < s.myOffset p then .next (s.setChk s.cur ttlate)
        else
          .next (s.modPhase (coreOf s.cur) fun p => { p with
            windows := p.windows ++
              [{ port := port, opens := o, width := width, base := base, cap := cap, got := 0, frag := none,
                 closed := false }] })

/-! ## MTRX (R175, R298) -/

/-- The core a permutation entry names in the issuer's cluster. -/
def State.permCore (s : State) (e : Word) : Nat := clusterOf (lcolOf s.cur) * 192 + fld 0 8 e

/-- MTRX (R175, R298): queues every fragment for its cycles, opens its window, and holds the core to the window's end. -/
def execMtrx (d a b : SReg) (s : State) : Result :=
  let w := s.rs b
  let t := fld 0 20 w
  let f := fld 20 8 w + 1
  let first := fld 28 8 w
  let n := fld 36 8 w + 1
  let i := fld 44 8 w
  match s.myPhase with
  | none => s.illegal
  | some p =>
    let es := (upFrom first n).map s.ttEntry
    if n ≤ i ∨ 256 < first + n then s.illegal
    else if es.any fun e => !isPerm e then s.illegal
    else
      s.orTrap (s.localRanges { va := s.rs a, algn := 32, len := 32 * n * f, bits := [3] }
          { va := s.rs d, algn := 32, len := 32 * n * f, bits := [4] }) fun (src, dst) =>
          if t < s.myOffset p ∨ t < p.sentEnd then .next (s.setChk s.cur ttlate)
          else
            let sends := (upFrom 0 n).map fun k =>
              ({ depart := s.myTimeAt p (t + k * f), left := f, off := src + 32 * f * k,
                 dst := s.permCore (es.getD k 0), port := 4, lane := 0, mtrx := some (i, 0) } : Sending)
            let win : Window := { port := 4, opens := t + 6, width := n * f, base := dst, cap := n * f, got := 0,
                                  frag := some f, closed := false }
            .next ((s.modPhase (coreOf s.cur) fun p => { p with
              sends := p.sends ++ sends, windows := p.windows ++ [win], sentEnd := t + n * f }).holdUntil
                (s.myTimeAt p (t + 6 + n * f) - 1))

/-! ## COMMEND (R174, R297) -/

/-- The clock a sleeping or issuing core has reached. -/
def State.clockOf (s : State) (core : Nat) : Nat := max (s.core core).now s.time

/-- The conditions of COMMEND hold for the phase of a core at a wafer time (R174). -/
def State.phaseDone (s : State) (core w : Nat) : Bool :=
  match (s.core core).phase with
  | some p =>
    (p.windows.all fun x => !x.isOpen (s.phaseOffset core p.t0 w)) && p.sends == [] &&
      s.flits.all fun f => f.orphan || f.src != p.slot
  | none => true

/-- Flits written into the windows of the issuing slot's phase. -/
def State.phaseGot (s : State) : Nat := ((s.myPhase).map (·.got)).getD 0

/-- The COMMEND of the issuing core's phase has been executed (R167). -/
def State.markEnding (s : State) : State := s.modPhase (coreOf s.cur) fun p => { p with ending := true }

/-- COMMEND (R174, R297): a switch point, like one that sleeps, DESIGN CHOICE where its conditions hold already, since R42
does not list it; one that has slept has left its core already (log 91). -/
def execCommend (d : SReg) (s : State) : Result :=
  match s.myPhase with
  | none => .next (s.setS 1 d 0)
  | some p =>
    if s.phaseDone (coreOf s.cur) s.myCore.now then .next (((s.endPhase s.cur).setS 1 d (word p.got)).switchAfter)
    else .next ((s.markEnding).sleep .phase)

/-! ## Flits in flight (R170, R173) -/

/-- What a boundary adds to a flit leaving district a in a direction: nothing inside a district, else a free value of
the band (R170, R171). -/
def State.boundaryDelay (s : State) (a b dir draw : Nat) : Nat :=
  if districtOf a = districtOf b then 0
  else
    let e := s.bltEntry (4 * districtOf a + dir)
    fld 0 16 e + Config.flitDelay draw % (fld 16 16 e - fld 0 16 e + 1)

/-- The lanes a flit takes from wafer time w at its first crossing on, with the time at which it reaches the last
crossing; never ahead of the flit before it on the same path (R170). -/
def State.lanesFrom (s : State) (lane draw : Nat) : Nat → List Hop → List (Nat × Nat × Nat × Nat) →
    List (Nat × Nat × Nat × Nat) × Nat
  | w, [], _ => ([], w)
  | w, (c, dir) :: hs, before =>
    let w := match before.head? with
      | some b => if b.1 = c ∧ b.2.1 = dir then max w (b.2.2.2 + 1) else w
      | none => w
    let next := (neighbour c dir).getD c
    let r := s.lanesFrom lane draw (w + 3 + s.boundaryDelay c next dir (draw + hs.length)) hs before.tail
    ((c, dir, lane, w) :: r.1, r.2)

/-- What a flit needs, each with the wafer time at which it needs it: its street lanes at crossings, and its port, in the
place of a lane that no street has (R173). -/
def Flit.needs (f : Flit) : List (Nat × Nat × Nat × Nat) := f.lanes ++ [(f.dst, f.port, 16, f.arrives)]

/-- What happens at a wafer time: of the flits that are still whole, those that need one thing together are lost
(R173). -/
def collideAt (w : Nat) (fs : List Flit) : List Flit :=
  let whole := fs.filter fun f => f.lostAt.isNone && !f.notice
  let all := whole.flatMap fun f => f.needs.filter fun n => n.2.2.2 == w
  fs.map fun f =>
    if f.lostAt.isNone && !f.notice && f.needs.any fun n => n.2.2.2 == w && 1 < all.count n then { f with lostAt := some w }
    else f

/-- The collisions from a wafer time on, in the order of time (R173). -/
def collideFrom (w : Nat) (fs : List Flit) : List Flit :=
  let times := ((fs.flatMap Flit.needs).map fun n => n.2.2.2).foldl (fun l t => if w ≤ t then addKey t l else l) []
  let again := fs.map fun f => match f.lostAt with
    | some l => if w ≤ l then { f with lostAt := none } else f
    | none => f
  times.foldl (fun fs t => collideAt t fs) again

/-- A flit leaves: from the time at which it first needs something, what meets what is found anew (R173). -/
def State.launchFlit (s : State) (f : Flit) : State :=
  let first := (f.needs.map fun n => n.2.2.2).foldl min f.arrives
  { s with flits := collideFrom first (s.flits ++ [f]) }

/-- FLIT_DEPARTURE: in its cycle the next flit of a core reads its bytes, which mark the sender where they are poisoned,
and leaves (R169, R170, R432). -/
def execFlitDeparture (core : Nat) (s : State) : Result :=
  match (s.core core).phase with
  | none => .next s
  | some p =>
    match p.sends with
    | [] => .next s
    | d :: ds =>
      let ready := (s.phaseClocks.all fun w => d.depart ≤ w) && (s.departures.all fun w => d.depart ≤ w) &&
        (s.arrivals.all fun w => d.depart ≤ w) && (s.phaseClocks != [] || d.depart ≤ s.time)
      if ready = false then .next s
      else
        let rest := if d.left ≤ 1 then ds
          else { d with depart := d.depart + 1, left := d.left - 1, off := d.off + 32,
                        mtrx := d.mtrx.map fun m => (m.1, m.2 + 1) } :: ds
        let hops := (s.mc.route (s.place (core / 8)).1 (s.place (d.dst / 8)).1).1
        let before := ((s.flits.filter fun f => coreOf f.src == core && f.dst == d.dst).getLast?)
        let ls := s.lanesFrom d.lane (s.fresh * 2 ^ 64) (d.depart + 4) hops ((before.map (·.lanes)).getD [])
        let arrives := match before with
          | some b => max (ls.2 + 2) (b.arrives + 1)
          | none => ls.2 + 2
        let f : Flit := { src := p.slot, orphan := false, dst := d.dst, port := d.port, mtrx := d.mtrx,
                          bytes := (upFrom 0 32).map fun i => s.mem.read (spadKey core (d.off + i)),
                          arrives := arrives, lanes := ls.1, notice := false, lostAt := none }
        let t := if s.anyPoison (spadKey core d.off) 32 then s.setChk p.slot 1 else s
        .next ((({ t with fresh := s.fresh + 1 }).modPhase core fun p => { p with sends := rest }).launchFlit f)

/-- Writes a flit into window n of a core's phase at a buffer place. -/
def State.writeFlit (s : State) (core n place : Nat) (p : Phase) (w : Window) (bs : List Byte) : State :=
  (s.homeWrite (s.writerOf p.slot) (spadKey core (w.base + 32 * place)) bs).modPhase core fun p =>
    { p with windows := modifyAt (fun w => { w with got := w.got + 1 }) p.windows n, got := p.got + 1 }

/-- A flit reaches a core that holds a participant: it is written, or dropped with ttmiss in the receiver (R173, R175,
R298). -/
def State.receive (s : State) (p : Phase) (f : Flit) : State :=
  let o := s.phaseOffset f.dst p.t0 f.arrives
  let hit := firstIdx (fun (w : Window) => w.port == f.port && !w.closed && w.opens ≤ o && o < w.stops) p.windows 0
  let miss := s.setChk p.slot ttmiss
  match hit, f.mtrx with
  | some (n, w), none => if w.got < w.cap then s.writeFlit f.dst n w.got p w f.bytes else miss
  | some (n, w), some (i, k) =>
    let place := w.frag.getD 1 * i + k
    if place < w.cap then s.writeFlit f.dst n place p w f.bytes else miss
  | none, some _ =>
    -- a core that runs no MTRX at that offset (R298)
    miss
  | none, none => miss

/-- FLIT_ARRIVAL: the index-th flit under way to a core reaches its port (R173). -/
def execFlitArrival (core index : Nat) (s : State) : Result :=
  match (s.flits.filter fun f => f.dst == core && !f.notice)[index]? with
  | none => .next s
  | some f =>
    let ready := (s.phaseClocks.all fun w => f.arrives ≤ w) && (s.departures.all fun w => f.arrives < w) &&
      (s.arrivals.all fun w => f.arrives ≤ w) && (s.phaseClocks != [] || f.arrives ≤ s.time)
    if ready = false then .next s
    else
      let gone := { s with flits := s.flits.filter fun g => g != f }
      match (s.core core).phase with
      | some p => .next (if f.lostAt.isSome then gone.setChk p.slot ttcoll else gone.receive p f)
      | none =>
        if f.lostAt.isSome then .next gone
        else .next { s with flits := updateIf (fun g => g == f) (fun g => { g with notice := true }) s.flits }

/-- DROP_NOTICE: a notice returns to the sending core and marks the sender (R173). -/
def execDropNotice (core : Nat) (s : State) : Result :=
  match s.flits.find? fun f => f.notice && coreOf f.src == core with
  | some f =>
    let gone := { s with flits := s.flits.filter fun g => g != f }
    .next (if f.orphan then gone else gone.setChk f.src ttmiss)
  | none => .next s

/-- TRECV_WINDOW_CLOSE: a window of a core has reached its end (R173). -/
def execTrecvWindowClose (core index : Nat) (s : State) : Result :=
  match (s.core core).phase with
  | none => .next s
  | some p =>
    match p.windows[index]? with
    | some w =>
      let stops := s.phaseTime core p.t0 w.stops
      if stops ≤ s.clockOf core ∧ (s.phaseClocks.all fun c => stops ≤ c) ∧ (s.departures.all fun c => stops ≤ c) ∧
          (s.arrivals.all fun c => stops ≤ c) then
        .next (s.modPhase core fun p => { p with windows := modifyAt (fun w => { w with closed := true }) p.windows index })
      else .next s
    | none => .next s

/-- PHASE_LIMIT: a participant has reached offset 2^20 without executing COMMEND: its phase ends, ttlate is set, and the
slot goes on where it stood. What it has sent leaves all the same, and what reaches it before the limit has come (R167). -/
def execPhaseLimit (slot : Nat) (s : State) : Result :=
  match (s.core (coreOf slot)).phase with
  | some p =>
    let limit := s.phaseTime (coreOf slot) p.t0 (2 ^ 20)
    if p.slot = slot ∧ p.ending = false ∧ 2 ^ 20 ≤ s.phaseOffset (coreOf slot) p.t0 (s.clockOf (coreOf slot)) ∧
        p.sends = [] ∧ (s.phaseClocks.all fun c => limit ≤ c) ∧ (s.departures.all fun c => limit ≤ c) ∧
        (s.arrivals.all fun c => limit ≤ c) then
      .next ((s.endPhase slot).setChk slot ttlate)
    else .next s
  | none => .next s

end Sys2Proof.Machine
end

