-- ==== Sys2Proof/Machine/System.lean ====
section
/-! DEFINITION. GETSR and SETSR (R333), CHKERR (R160, R344), TRAP (R341), GKILL (R342), ERET (R343), SIGCHK (R346), TINV
(R347), TEND (R219), and the writes of INBOX and BANKKEY (R69, R277). -/

namespace Sys2Proof.Machine

/-! ## GETSR and SETSR -/

/-- GETSR (R333). -/
def execGetsr (d : SReg) (n : BitVec 14) (s : State) : Result :=
  match s.readSys s.cur n.toNat with
  | some v => .next (s.setS 1 d v)
  | none => s.illegal

/-- Issue cycles after which a SETSR's write takes effect: at once for the next bundle, or at its release (R193). -/
def setsrDelay (n : Nat) : Nat := if hasSupField n then 3 else 1

/-- The SETSR sleeps until the cores of the partition hold the value: context scope but for BANKKEY (R69, R333). -/
def setsrSleeps (n : Nat) : Bool := isContextReg n && n != 0x041

/-- SETSR (R193, R330, R333). -/
def execSetsr (n : BitVec 14) (a : SReg) (s : State) : Result :=
  let n := n.toNat
  if isSysReg n = false then s.illegal
  else if hasSupField n && !s.me.sup then s.priv
  else
    let t := s.result (setsrDelay n) (.sysreg n (s.rs a))
    .next (if setsrSleeps n then t.answerAfter else t)

/-- INBOX_WRITE: INBOX of a slot is written; the ring and the overflow area go (R277). -/
def execInboxWrite (slot : Nat) (v : Word) (s : State) : Result := .next (s.writeSys slot 0x009 v)

/-- BANKKEY_WRITE: the key is kept until the partition's next switch-in (R69). -/
def execBankkeyWrite (part : BitVec 4) (v : Word) (s : State) : Result :=
  .next (s.modPart part.toNat fun p => { p with bankkeyKept := fieldWrite 0x041 0xFFFFFFFFFFFFFFFF v p.bankkeyKept })

/-- CHKERR (R160, R344). -/
def execChkerr (d : SReg) (s : State) : Result := .next (s.setS 1 d s.me.sys.chkint)

/-! ## TRAP, GKILL, ERET -/

/-- TRAP (R341). -/
def execTrap (a : SReg) (s : State) : Result := s.raise 0x07 0 (s.rs a)

/-- A live group of the issuer's partition has this id. -/
def State.liveGroup (s : State) (tgid : Nat) : Bool := s.curPart.groups.any fun g => g.tgid == tgid

/-- GKILL (R342): the slots of a killed group are FREE at once. -/
def execGkill (d a : SReg) (s : State) : Result :=
  let tgid := fld 0 16 (s.rs a)
  if s.inPhase then s.illegal
  else if s.me.sup = false then s.priv
  else if s.liveGroup tgid = false then .next (s.setS 1 d 0)
  else if tgid = s.me.tgid then .next { s.killGroup s.myPart tgid with flow := .ended }
  else .next ((s.killGroup s.myPart tgid).answerS d 1)

/-- ERET (R330, R343, R345). -/
def execEret (s : State) : Result := if s.me.sup then .next (s.returnFrom s.cur) else s.priv

/-! ## SIGCHK -/

/-- SIGCHK: the A syllable beside it belongs to the block it closes (R345, R346). -/
def execSigchk (imm : BitVec 16) (s : State) : Result :=
  let t := if feedA s.me.sig s.ir = imm then s else s.setChk s.cur 2
  .next (t.modMe fun t => { t with sig := 0xFFFF })

/-! ## TINV -/

/-- A range of n bytes from base in {region, offset} overlaps size bytes from p (R266, R347). -/
def rangeMeets (base n p size : Nat) : Bool := base < p + size && p < min (base + n) (2 ^ 42)

/-- Drops the kept leaves of a context that a test names, and lets accesses behind a migrating page read its entry
again (R347, R409, R412). -/
def State.dropLeaves (s : State) (pn : Nat) (page : Nat → Nat → Bool) : State :=
  let hit := fun (c : CachedLeaf) => c.part == pn && page (c.page * 2 ^ c.size) (2 ^ c.size)
  let t := { s with tlb := s.tlb.filter fun c => !hit c }
  let waits := fun (e : Nat × Slot) => match e.2.cond with
    | .migration va => e.2.status == .asleep && t.partNoOf e.1 == pn && page (fld 16 26 va * 2 ^ 16) (2 ^ 16)
    | _ => false
  (t.slots.filter waits).foldl (fun u e => u.wake e.1) t

/-- Marks the entries of a context that were accepted under a translation of pages that a test names, and are not home
yet (R413). -/
def State.markRemoved (s : State) (pn : Nat) (page : Nat → Nat → Bool) : State :=
  let hit := fun (e : Entry) => !e.settled && e.pages.any fun p => page p.1 p.2
  ((s.slots.filter fun e => s.partNoOf e.1 == pn && e.2.log.entries.any hit).map (·.1)).foldl
    (fun s k => s.modLog k (updateIf hit fun e => { e with removed := true })) s

/-- A removed translation still has entries that are not home (R413). -/
def State.removedLeft (s : State) (pn : Nat) : Bool :=
  s.slots.any fun e => s.partNoOf e.1 == pn && e.2.log.entries.any fun x => x.removed && !x.settled

/-- The translations of the issuer's context for pages that a test names go, and the slot sleeps until the NIs have
dropped them and the entries accepted under them are home (R347, R413). -/
def State.invalidate (s : State) (page : Nat → Nat → Bool) : Result :=
  let s := if s.me.redo.isSome then s else (s.dropLeaves s.myPart page).markRemoved s.myPart page
  if s.removedLeft s.myPart then .next (s.sleep .removed) else .next s.answerAfter

/-- TINV (R330, R347, R413). -/
def execTinv (a b : SReg) (s : State) : Result :=
  if s.me.sup = false then s.priv
  else if s.rs b = 0 then .next s
  else s.invalidate (rangeMeets (fld 0 42 (s.rs a)) (s.rs b).toNat)

/-- TINV.ALL (R330, R347, R413). -/
def execTinvAll (s : State) : Result := if s.me.sup = false then s.priv else s.invalidate fun _ _ => true

/-! ## What BAR and TEND begin with (R95, R154, R174, R219) -/

/-- Inside a phase, COMMEND first (R174). How the instruction waits, holding its bundle or not, it says itself
(R187). -/
def State.leavePhase (s : State) (wait : State → Cond → State) (go : State → Result) : Result :=
  if s.inPhase then
    (if s.phaseDone (coreOf s.cur) s.myCore.now then go (s.endPhase s.cur) else .next (wait s.markEnding .phase))
  else go s

/-- The implicit release: as REL, but a refused entry traps at the instruction (R95). -/
def State.implicitRelease (s : State) (wait : State → Cond → State) (go : State → Result) : Result :=
  let s := s.askAll
  match s.me.log.entries.find? Entry.isRefused with
  | some e =>
    let reason := match e.state with
      | .refused r => r
      | _ => 0
    let t := s.modEntry s.cur e.seq fun e => { e with trapDue := false }
    .next { t.takeTrap s.cur s.me.pc 0x06 reason e.va (some e.seq) with flow := .trapped }
  | none => if s.answered s.cur then go (s.publish s.cur) else .next (wait s .release)

/-- Copies, jobs and requests of slot k whose completion has not been posted (R154). -/
def State.ownWork (s : State) (k : Nat) : Bool :=
  (s.copies.any fun c => c.slot == k && !c.orphan) || (s.jobs.any fun j => j.slot == k && !j.orphan) ||
    s.masks.any fun r => r.slot == k && !r.orphan

/-- The error bits of CHKINT (R158). -/
def errBits (w : Word) : Word := w &&& 0x7E

/-- Slot k has an error bit set. -/
def Slot.inError (t : Slot) : Bool := errBits t.sys.chkint != 0

/-- The error bits of a charged service task go to its group's next check (R165). -/
def State.carryBits (s : State) : State :=
  match s.me.svc, s.me.charge with
  | true, some g =>
    s.modPart s.myPart fun p =>
      let b := lookup Bar.reset p.bars g
      { p with bars := insert { b with carried := b.carried ||| errBits s.me.sys.chkint } p.bars g }
  | _, _ => s

/-- TEND (R161, R165, R219, R340): the A syllable beside it has issued while it waits. -/
def execTend (s : State) : Result :=
  if s.me.sup && s.me.quar then .next { s.killGroup s.me.partNo s.me.tgid with flow := .ended }
  else
    s.leavePhase State.sleep fun s => s.implicitRelease State.sleep fun s =>
      if s.ownWork s.cur then .next (s.sleep .work)
      else if !s.me.svc && s.me.inError then
        .next ((s.modMe fun t => { t with bar := .arrived false true }).sleep .barrier)
      else .next { (s.carryBits).endTask s.cur with flow := .ended }

end Sys2Proof.Machine
end

