-- ==== Sys2Proof/Machine/Barrier.lean ====
section
/-! DEFINITION. Barriers: BAR, BARGEN, BARWAIT, the barrier's outcome, what a restore gives back, settling and the
release (R154 to R157, R161 to R166, R292, R293, R431, R436). -/

namespace Sys2Proof.Machine

/-! ## Instructions (R292, R293) -/

/-- BAR and BAR.C (R46, R154, R174, R292, R340). -/
def State.arrive (s : State) (d : SReg) (part : Bool) : Result :=
  if s.me.svc || s.me.sup then s.illegal
  else
    match s.me.bar with
    | .passed gen _ => .next (s.setS 1 d (word gen))
    | .arrived _ _ => .next (s.hold .barrier)
    | .away =>
      s.leavePhase State.hold fun s => s.implicitRelease State.hold fun s =>
        if s.ownWork s.cur then .next (s.hold .work)
        else .next ((s.modMe fun t => { t with bar := .arrived part false }).hold .barrier)

/-- BAR (R292). -/
def execBar (d : SReg) (s : State) : Result := s.arrive d false

/-- BAR.C: the member takes part in the communication phase (R292). -/
def execBarC (d : SReg) (s : State) : Result := s.arrive d true

/-- BARGEN (R157, R293). -/
def execBargen (d a : SReg) (s : State) : Result :=
  .next (s.setS 1 d (word (s.barOf s.myPart (fld 0 4 (s.rs a))).gen))

/-- A generation has passed v (R157). -/
def genPassed (gen v : Nat) : Bool := 1 ≤ gap 32 gen v && gap 32 gen v ≤ 2 ^ 31 - 1

/-- BARWAIT (R157, R293). -/
def execBarwait (a b : SReg) (s : State) : Result :=
  let g := fld 0 4 (s.rs a)
  let v := fld 0 32 (s.rs b)
  if genPassed (s.barOf s.myPart g).gen v then .next s else .next (s.hold (.generation g v))

/-! ## The last arrival (R50, R155) -/

/-- The barrier can act: the partition is on the wafer, and a quarantine that is due finds no participant in a phase and
no answer that the stop waits for (R420, R421, R437). -/
def State.barrierDue (s : State) (pn g : Nat) : Bool :=
  s.allArrived pn g && (s.barOf pn g).stage == .gathering &&
    ((s.part? pn).map (·.out.isNone)).getD false &&
    (s.dueCols pn == [] || (!s.partPhase pn && !s.partAwaits pn))

/-! ## Drain and check -/

/-- The drain: every entry of every member goes home, their view lines and replay records go (R95). -/
def State.drain (s : State) (ms : List Nat) : State :=
  ms.foldl (fun s k =>
    ((s.crystWhere k fun _ => true).dropLines (coreOf k) fun l => l.slot == slotNo k).modSlot k
      fun t => { t with replays := [] }) s

/-- The service slots of a partition that a test names. -/
def State.services (s : State) (pn : Nat) (p : Slot → Bool) : List Nat :=
  (s.slots.filter fun e => e.2.status != .free && s.partNoOf e.1 == pn && e.2.svc && p e.2).map (·.1)

/-- The error bits the check finds: of the members, of the service slots charged to the group, and carried ones
(R155, R165). -/
def State.checkBits (s : State) (pn g : Nat) : Word :=
  (s.members pn g ++ s.services pn fun t => t.charge == some g).foldl
    (fun w k => w ||| errBits (s.slot k).sys.chkint) (s.barOf pn g).carried

/-- The largest tries field of the members (R155). -/
def State.maxTries (s : State) (ms : List Nat) : Nat := (ms.map fun k => fld 32 8 (s.slot k).sys.chkint).foldl max 0

/-- Clears the error bits of the service slots charged to a group (R158). -/
def State.clearServices (s : State) (pn g : Nat) : State :=
  (s.services pn fun t => t.charge == some g).foldl (fun s k =>
    s.modSlot k fun t => t.modSys fun r => { r with chkint := r.chkint &&& ~~~ (0x7E : Word) }) s

/-- The records of a group's work in the partition's inboxes are no longer of a superstep under way. -/
def State.settleWorks (s : State) (pn g : Nat) : State :=
  (s.tasksIn pn).foldl (fun s k => s.modSlot k fun t => t.keepWorks g) s

/-! ## The outcomes (R155) -/

/-- Continue: versions change, the generation advances, and the members' bits, tries, stochastic counters, marks and
journals start afresh (R95, R141, R155). -/
def State.goOn (s : State) (pn g : Nat) (ms : List Nat) : State :=
  let gen := ((s.barOf pn g).gen + 1) % 2 ^ 32
  let s := (s.advanceLayers pn g).modBar pn g fun b => { b with gen := gen, carried := 0, lostCols := [] }
  let s := ms.foldl (fun s k => s.modSlot k fun t =>
    let part := match t.bar with
      | .arrived p _ => p
      | _ => false
    { t with bar := .passed gen part, stoch := 0, mark := t.log.seq, sys := { t.sys with chkint := 0 } }) s
  let s := (s.services pn fun t => t.charged.contains g && t.charge != some g).foldl (fun s k =>
    s.modSlot k fun t => { t with charged := t.charged.filter fun x => x != g }) (s.clearServices pn g)
  (s.forgetJournal pn g).settleWorks pn g

/-- The start state of a task (R39), as a restore of its first superstep gives it back (R51). -/
def Slot.startOf (t : Slot) (x : Task) : Snapshot :=
  { regs := { Regs.start with s := Regs.start.s.set 1 x.args }, flight := [], pc := x.entry &&& ~~~ (7 : Word),
    loops := [], sig := 0xFFFF, fpflags := 0, wincfg := t.sys.wincfg, winseed := t.sys.winseed,
    mxscale := t.sys.mxscale, geom := t.sys.geom, msglat := t.sys.msglat, head := fld 30 17 t.sys.inbox, stoch := 0,
    counters := t.counters, participant := false, gang := none }

/-- What a restore gives back to a slot: its last barrier's state, or its start. -/
def Slot.backTo (t : Slot) : Snapshot := t.snap.getD (t.startOf (t.task.getD { entry := t.pc, args := 0 }))

/-- A slot given back a snapshot, asleep until the release (R162, R332). -/
def Slot.restored (t : Slot) (x : Snapshot) : Slot :=
  let u := { t with
    regs := x.regs, flight := x.flight, pc := x.pc, loops := x.loops, sig := x.sig, stoch := x.stoch,
    counters := x.counters, trap := { t.trap with status := 0 }, bar := .away, redo := none, quar := false,
    fuseOut := false, wd := 0, status := .asleep, cond := .barrier,
    sys := { t.sys with fpflags := x.fpflags, wincfg := x.wincfg, winseed := x.winseed, mxscale := x.mxscale,
                        geom := x.geom, msglat := x.msglat } }
  u.setHead x.head

/-- A member's log returns to its barrier mark (R96). -/
def Slot.discardLog (t : Slot) : Slot :=
  { t with log := { t.log with entries := t.log.entries.filter fun e => !t.afterMark e.seq, seq := t.mark }, pub := t.mark }

/-- The gangs that stood at the members' last barrier, and whose members are all members still, stand again: DESIGN CHOICE
(log 86), since R49 says so of a pre-emption only and R162 does not name gangs. A gang of which a task has ended since does
not: its other members issue by themselves (R49, R51). -/
def State.restoreGangs (s : State) (ms : List Nat) : State :=
  let back := ((ms.filterMap fun k => ((s.slot k).backTo).gang).eraseDups).filter fun g => g.members.all ms.contains
  { s with gangs := (s.gangs.filter fun g => !g.members.any fun k => ms.contains k) ++ back }

/-- A service task that was charged to group g starts again; of the other groups it has been charged to since their last
barriers, each may still restart it (R165). -/
def State.restartService (s : State) (g k : Nat) : State :=
  ((s.dissolve k).unissue k).modSlot k fun t =>
    let head := (t.backTo).head
    let u := (t.restored { t.startOf (t.task.getD { entry := t.pc, args := 0 }) with head := head })
    { u with status := .ready, cond := .none, charge := none, charged := t.charged.filter fun x => x != g,
             counters := t.counters }

/-- The restore of a group (R162, R165, R436), its charged services' entries being home: the logs, the write-back of the
journals, registers, inboxes and layer versions; tries becomes n in every member. -/
def State.restoreGroup (s : State) (pn g n : Nat) (ms : List Nat) : State :=
  let svcs := s.services pn fun t => t.charged.contains g
  let s := ms.foldl (fun s k => s.modSlot k Slot.discardLog) s
  let s := (s.undo pn g).restoreGangs ms
  let s := ms.foldl (fun s k => s.modSlot k fun t =>
    let u := t.restored t.backTo
    { u with sys := { u.sys with chkint := word (n * 2 ^ 32) } }) s
  let s := (ms ++ svcs).foldl (fun s k => s.voidWorks k g) s
  let s := svcs.foldl (fun s k => s.restartService g k) (s.clearServices pn g)
  (((s.backLayers pn g).forgetJournal pn g).settleWorks pn g).modBar pn g fun b => { b with carried := 0, lostCols := [] }

/-- A trap taken at the barrier: the slot sleeps on until the release; one whose group the trap of another has killed takes
none. -/
def State.barTrap (s : State) (k code detail : Nat) (addr : Word) : State :=
  if (s.slot k).status = .free then s
  else
    let t := s.takeTrap k (s.slot k).pc code detail addr none
    t.modSlot k fun x => if x.status = .ready then { x with status := .asleep, cond := .barrier, bar := .away } else x

/-- The column that a QUAR trap names: the lowest lost column on which the group came to depend (R155, R337). -/
def State.quarColumn (s : State) (pn g : Nat) : Nat :=
  ((s.barOf pn g).lostCols.head?.getD
    ((s.lost.filter fun c => (s.partAt c).map (·.1) == some pn).head?.getD 0))

/-- The outcome restores: an error bit other than collost, and no undo area or journal that overflowed (R155). -/
def State.restores (s : State) (pn g : Nat) (ms : List Nat) : Bool :=
  let bits := s.checkBits pn g
  !flag 3 bits && bits != 0 && !ms.any fun k => flag 16 (s.slot k).sys.chkint

/-- The service slots charged to a group, their entries forced home, which a restore waits for (R165). -/
def State.forceCharged (s : State) (pn g : Nat) : State :=
  (s.services pn fun t => t.charged.contains g).foldl (fun s k => s.crystWhere k fun _ => true) s
def State.chargedStall (s : State) (pn g : Nat) : Bool :=
  (s.services pn fun t => t.charged.contains g).any fun k => s.stalledAt k fun _ => true

/-- HBM bytes between which a record of a scratchpad undo area lies; none for another journal, which stands in the line's own
store (R434, R435). -/
def State.undoRecord (s : State) (r : JournalRec) : List Nat :=
  match homeOf (r.line * 64) with
  | .spad core _ =>
    let n := ((s.journal.filter fun x => journalOf x.line == journalOf r.line).takeWhile fun x => x != r).length
    [s.frameTop + 0x40000 * core + 72 * n, s.frameTop + 0x40000 * core + 72 * n + 71]
  | _ => []

/-- A line that a restore would write back, or its record, lies in a channel under repair (R444). -/
def State.undoHeld (s : State) (pn g : Nat) : Bool :=
  s.journal.any fun r => r.part == pn && r.group == g &&
    (s.keyHeld (r.line * 64) || (s.undoRecord r).any fun a => s.channelHeld (channelOf a))

/-- The outcome of a barrier, and the members that arm its phase (R155). -/
def State.outcome (s : State) (pn g : Nat) (ms : List Nat) : State × List Nat :=
  let bits := s.checkBits pn g
  let tries := s.maxTries ms
  if flag 3 bits then
    let a := colBase (s.quarColumn pn g)
    ((ms.foldl (fun s k => s.barTrap k 0x0A 0 a) s).modBar pn g fun b => { b with lostCols := [] }, [])
  else if bits ≠ 0 ∧ (ms.any fun k => flag 16 (s.slot k).sys.chkint) then
    ((ms.map fun k => (s.slot k).tgid).eraseDups.foldl (fun s t => s.killGroup pn t) s, [])
  else if bits ≠ 0 ∧ 2 ≤ tries then
    (ms.foldl (fun s k => s.barTrap k 0x09 tries 0) (s.restoreGroup pn g 0 ms), [])
  else if bits ≠ 0 then
    (s.restoreGroup pn g (tries + 1) ms, ms.filter fun k => ((s.slot k).backTo).participant)
  else
    (s.goOn pn g ms, ms.filter fun k => (s.slot k).bar == .arrived true false)

/-- Of the slots that arm a phase, the lowest of each core takes part; two of one core get ttcoll (R166). -/
def State.armOne (s : State) (arm : List Nat) : State × List Nat :=
  let twice := arm.filter fun k => arm.any fun j => j != k && coreOf j == coreOf k
  (s.setChks twice 4, arm.filter fun k => !arm.any fun j => coreOf j == coreOf k && j < k)

/-- A partition without live groups, on the wafer, has a column that was lost: its quarantine waits for no barrier
(R433). -/
def State.idleLoss (s : State) (pn : Nat) : Bool :=
  s.noGroups pn && ((s.part? pn).map (·.out.isNone)).getD false && (s.dueCols pn).any s.lost.contains

/-- BARRIER: on the last arrival, steps 1 to 5 of R155; step 6 begins. A restore waits until the entries of the services
charged to the group are home (R165), and for repairs in the way of its write-backs (R444). A partition whose last group has
ended since it lost a column takes the quarantine step without one, DEDUCED (R433, log 87). A barrier that kills every member
ends here (R419). -/
def execBarrier (part bgrp : BitVec 4) (s : State) : Result :=
  let pn := part.toNat
  let g := bgrp.toNat
  if s.barrierDue pn g = false then .next (if s.idleLoss pn then s.quarantine pn else s)
  else
    let ms := s.members pn g
    let d := s.drain ms
    let d := if d.restores pn g ms then d.forceCharged pn g else d
    if (ms.any fun k => d.unsettled k fun _ => true) ∨ (d.restores pn g ms ∧ (d.chargedStall pn g ∨ d.undoHeld pn g)) then .next s
    else
      let (t, arm) := d.outcome pn g ms
      let t := t.quarantine pn
      let alive := fun (k : Nat) => (t.slot k).status != .free
      let (t, armed) := t.armOne (arm.filter alive)
      let back := ms.filter alive
      .next (if back = [] then t.endBar pn g
        else t.modBar pn g fun b =>
          { b with stage := if armed = [] then .settled t.time else .settling t.time armed, resume := back, armed := armed })

/-! ## Settling and the release (R155, R156, R431) -/

/-- CORE_SETTLED: within the 256 cycles the core of a participant has settled at offset 0; with the last of them step 6
ends. -/
def execCoreSettled (part : BitVec 4) (participant : BitVec 4 × Nat) (s : State) : Result :=
  let bgrp := participant.1
  match (s.barOf part.toNat bgrp.toNat).stage with
  | .settling since left =>
    if s.time < since + 256 then
      (let rest := left.filter fun k => k != participant.2
       .next (s.modBar part.toNat bgrp.toNat fun b =>
         { b with stage := if rest = [] then .settled s.time else .settling since rest }))
    else .next s
  | _ => .next s

/-- SETTLE_LIMIT: 256 cycles have passed; the participants whose cores have not settled are poisoned, and step 6 ends. -/
def execSettleLimit (part bgrp : BitVec 4) (s : State) : Result :=
  match (s.barOf part.toNat bgrp.toNat).stage with
  | .settling since left =>
    if since + 256 ≤ s.time then
      .next ((s.setChks left 1).modBar part.toNat bgrp.toNat fun b => { b with stage := .settled s.time })
    else .next s
  | _ => .next s

/-- TIMEOFS of the district in which a slot lies. -/
def State.slotOfs (s : State) (k : Nat) : Int := s.ofsOf (districtOf (s.place (lcolOf k)).1)

/-- The earliest release value after step 6 ended at a wafer time: 64 cycles later in every member's district, not before
its partition resumes after a restore, and late enough for a participant's core to switch (R156, R422). -/
def State.releaseValue (s : State) (b : Bar) (ended : Nat) : Nat :=
  let far := b.resume.map fun k => ((max (ended + 64) (s.resumesAt (lcolOf k)) : Nat) + s.slotOfs k).toNat
  let near := b.armed.map fun k => (((s.core (coreOf k)).now : Int) + 3 + s.slotOfs k).toNat
  (far ++ near).foldl max 0

/-- Wafer time at which a slot's district counter reads t0. -/
def State.slotTime (s : State) (t0 k : Nat) : Nat := ((t0 : Int) - s.slotOfs k).toNat

/-- The core of slot k stops issuing another slot, whose results land at their own times (R42, R43, R156). -/
def State.displace (s : State) (k : Nat) : State :=
  match (s.core (coreOf k)).issuing with
  | some n => if n = slotNo k then s else s.switchPoint (coreOf k * 4 + n)
  | none => s

/-- A member resumes where its district's counter reads t0: READY at that time, or as the participant of its core's
phase, whose next bundle then issues at offset 0 (R156, R167). -/
def State.resumeMember (s : State) (armed : List Nat) (t0 k : Nat) : State :=
  let at_ := s.slotTime t0 k
  if (s.slot k).status != .asleep || (s.slot k).cond != .barrier then s
  else if armed.contains k then
    let u := (s.modSlot k fun t => { t with status := .ready, cond := .none }).displace k
    let early := match (u.slot k).bar with
      | .passed _ _ => 1
      | _ => 0
    (u.corePasses (coreOf k) (at_ - early - (u.core (coreOf k)).now)).modCore (coreOf k) fun c =>
      { c with issuing := some (slotNo k), last := slotNo k, now := at_ - early,
               phase := some { slot := k, t0 := t0, windows := [], sentEnd := 0, got := 0, sends := [] } }
  else s.modSlot k fun t => { t with cond := .answer at_ }

/-- BARRIER_RELEASE: the barrier releases at the earliest value, or some cycles later; it waits while a participant's core
is still in a phase of another group (R156). -/
def execBarrierRelease (part bgrp : BitVec 4) (slack : Nat) (s : State) : Result :=
  let b := s.barOf part.toNat bgrp.toNat
  match b.stage with
  | .settled ended =>
    if b.armed.any fun k => (s.core (coreOf k)).phase.isSome then .next s
    else
      let t0 := s.releaseValue b ended + slack
      let t := b.resume.foldl (fun s k => s.resumeMember b.armed t0 k) s
      let t := t.modPart part.toNat fun p => p.ended ((b.resume.map fun k => s.slotTime t0 k).foldl max s.time)
      .next (t.modBar part.toNat bgrp.toNat fun b => { b with stage := .gathering, resume := [], armed := [] })
  | _ => .next s

end Sys2Proof.Machine
end

