-- ==== Sys2Proof/Machine/Reliability.lean ====
section
/-! DEFINITION. Late transitions and margins (R194, R427 to R431, R441), soft errors and poison (R432), and failures of
the vertical bus (R433). -/

namespace Sys2Proof.Machine

/-! ## Replays (R194, R429, R430) -/

/-- A core's period: TIME[63:21] of its district (R430). -/
def State.periodOf (s : State) (core : Nat) : Nat := fld 21 43 (s.timeOf core)

/-- A replay at pc is counted: consecutive ones, and those at offset 0 or in a communication phase in the period (R429 to
R431). -/
def Core.countReplay (c : Core) (pc : Word) (period : Nat) : Core :=
  let again := c.consec != 0 && c.consecPc == pc
  let kept := if c.period = period then c.atZero else 0
  { c with consec := if again then c.consec + 1 else 1, consecPc := pc, period := period,
           atZero := if fld 0 5 c.margin = 0 ∨ c.phase.isSome then kept + 1 else kept,
           replays := setFld 0 32 (satInc 32 (fld 0 32 c.replays)) c.replays }

/-- margin.limit, 0 acting as 1 (R336). -/
def Core.limit (c : Core) : Nat := max 1 (fld 24 4 c.margin)

/-- What the count triggers: 1 an automatic raise, 2 a forced one (R429). -/
def Core.trigger (c : Core) : Option Nat :=
  if c.consec = c.limit ∧ flag 31 c.margin then some 1 else if c.consec = 16 then some 2 else none

/-- A raise: the new offset, the count 0, and one more raise (R429). -/
def Core.raised (c : Core) (kind : Nat) : Core :=
  let o := fld 0 5 c.margin
  { c with margin := setFld 0 5 (if kind = 2 then 0 else o - 2) c.margin, consec := 0,
           replays := setFld 48 16 (satInc 16 (fld 48 16 c.replays)) c.replays }

/-- Writes an event of a core to the margin log (R441). -/
def State.logMargin (s : State) (core kind : Nat) : State :=
  let e : MarginEvent := { time := s.time, lcol := core / 8, core := core % 8, kind := kind,
                           offset := fld 0 5 (s.core core).margin, seen := false }
  { s with mc := { s.mc with marginLog := s.mc.marginLog ++ [e] } }

/-- The raise that a core's count triggers (R429). -/
def State.raiseMargin (s : State) (core : Nat) : State :=
  match (s.core core).trigger with
  | none => s
  | some kind =>
    let t := (s.modCore core fun c => c.raised kind).logMargin core kind
    { t with mc := { t.mc with raises := insert (lookup 0 t.mc.raises core + 1) t.mc.raises core } }

/-- The 64th replay at offset 0 in a period marks the core failing (R430). -/
def State.markFailing (s : State) (core : Nat) : State :=
  let c := s.core core
  if 64 ≤ c.atZero ∧ c.failing = false then
    (s.modCore core fun c => { c with failing := true, margin := setFld 0 5 0 c.margin }).logMargin core 3
  else s

/-- The cores that stall with a core: the members of its gang (R48). -/
def State.stallsWith (s : State) (core : Nat) : List Nat :=
  match s.gangOf core with
  | some g => g.members.map coreOf
  | none => [core]

/-- A slot of the core holds a task. -/
def State.coreBusy (s : State) (core : Nat) : Bool := (upFrom (core * 4) 4).any fun k => (s.slot k).status != .free

/-- A replay of the bundle at pc: its effects are those of its last execution, so what remains is 7 cycles, and the counts
and raises (R190, R194, R429, R430). -/
def State.replayed (s : State) (core : Nat) (pc : Word) : State :=
  let t := s.modCore core fun c => c.countReplay pc (s.periodOf core)
  let t := (t.raiseMargin core).markFailing core
  (s.stallsWith core).foldl (fun t x => t.modCore x fun c => { c with now := c.now + 7 }) t

/-- REPLAY: a late transition replays the bundle at an address, which poisons a participant in its phase (R194, R429 to
R431); or the MC is asked to force a mismatch at the next issue of the bundle, which it refuses while the core is in a
phase (R384). -/
def execReplay (core : Nat) (bundle : Bool × Word) (s : State) : Result :=
  if bundle.1 then
    .next (if (s.core core).phase.isSome then s else s.modCore core fun c => { c with armed := some bundle.2 })
  else if s.coreBusy core = false then .next s
  else
    let t := s.replayed core bundle.2
    .next (match (t.core core).phase with
      | some p => t.setChk p.slot 1
      | none => t)

/-- A bundle issues on a core: a mismatch that is forced on it replays it, once, outside a phase (R384). -/
def State.forcedReplay (s : State) (core : Nat) (pc : Word) : State :=
  let c := s.core core
  if c.armed = some (pc &&& ~~~ (7 : Word)) ∧ c.phase.isNone then (s.modCore core fun c => { c with armed := none }).replayed core pc
  else s

/-- REPLAY_PERIOD: a new period of the core's district begins, and its count at offset 0 returns to 0 (R430). -/
def execReplayPeriod (core : Nat) (s : State) : Result :=
  if (s.core core).period = s.periodOf core then .next s
  else .next (s.modCore core fun c => { c with period := s.periodOf core, atZero := 0 })

/-! ## Soft errors (R427, R432) -/

/-- RECEIVE_PARITY_ERROR: data arrives as poison: the receiving slot is marked, and so are the lines of its core's
scratchpad in which the data, n bytes from o on, came to lie (R427, log 77). -/
def execReceiveParityError (data : Nat × Nat × Nat) (s : State) : Result :=
  let slot := data.1
  let o := data.2.1
  let n := data.2.2
  if (s.slot slot).status = .free then .next s
  else .next ((s.markLines ((upFrom (o % 0x20000) (min n (0x20000 - o % 0x20000))).map fun i =>
    spadKey (coreOf slot) i)).setChk slot 1)

/-- SOFT_ERROR_CORRECTED: counted, and nothing else (R432). -/
def execSoftErrorCorrected (s : State) : Result :=
  .next { s with mc := { s.mc with softErrors := count64 s.mc.softErrors } }

/-- A home key names a byte of this device. -/
def State.keyExists (s : State) (key : Nat) : Bool :=
  match homeOf key with
  | .hbm pa => pa < s.mc.hbmtop
  | .col lcol _ => lcol < 20160
  | .spad core _ => core < 161280
  | .acc lcol _ => lcol < 20160

/-- UNCORRECTABLE_ERROR: the line that holds the error is poison at its home (R432): 0, the line of home key a; 1, line b
of core a's view, whose bytes are poison there too; 2, the entry of sequence b in slot a's log, which poisons its lines
at home, now as far as they are known and when it comes home, and whoever takes its bytes before; 3, the release cell of slot
a, which whoever acquires from it consumes, and which no publication of its 8 bytes clears (log 77). -/
def execUncorrectableError (place : BitVec 2 × Nat × Nat) (s : State) : Result :=
  let store := place.1
  let a := place.2.1
  let b := place.2.2
  if store = 0 then .next (if s.keyExists a then s.poisoned [a] else s)
  else if store = 1 then
    match (s.core a).view[b]? with
    | some l => .next ((s.modCore a fun c =>
        { c with view := modifyAt (fun x => { x with bad := true }) c.view b }).poisoned [l.line * 64])
    | none => .next s
  else if store = 2 then
    match (s.slot a).log.entries.find? fun e => e.seq == b && !e.settled with
    | some e => .next ((s.modEntry a b fun e => { e with bad := true }).poisoned e.homes)
    | none => .next s
  else .next (if s.keyExists (colKey (lcolOf a) 0) then s.modSlot a fun t => { t with pubBad := true } else s)

/-! ## The vertical bus (R433) -/

/-- Partition number in the quarantine record of a column that lies in no partition, DESIGN CHOICE (log 78). -/
def noPart : Nat := 0xFF

/-- VBUS_PARITY_FAILURE: a transfer that fails once or twice succeeds on its repeat and is counted; the third failure
loses the column, which is quarantined at once in a partition without live groups (R10, R433). A column that lies in no
partition is lost and quarantined at once too, DESIGN CHOICE, since R433 speaks of a column's partition only (log 78). -/
def execVbusParityFailure (lcol repeats : Nat) (s : State) : Result :=
  if repeats = 1 ∨ repeats = 2 then
    .next { s with mc := { s.mc with vbusRepeats := count64 s.mc.vbusRepeats } }
  else if repeats = 3 ∧ lcol < 20160 ∧ s.lost.contains lcol = false then
    match s.partAt lcol with
    | some (pn, _) =>
      (let t := s.loseColumn lcol
       .next (if t.noGroups pn then t.quarantine pn else t))
    | none => .next (({ s with lost := addKey lcol s.lost }.loseRegion lcol).quarantineCol noPart lcol)
  else .next s

end Sys2Proof.Machine
end

