-- ==== Sys2Proof/Machine/Launch.lean ====
section
/-! DEFINITION. The launch endpoint (R30 to R33, R399), the launch queues and the start of tasks (R37 to R39), and the
waking of sleepers (R42). -/

namespace Sys2Proof.Machine

/-! ## The launch message (R30) -/

/-- The fields of a launch message. -/
structure LaunchMsg where
  entry : Word
  args : Word
  ext : Nat
  waita : Nat
  waitb : Nat
  sig : Nat
  bgrp : Nat
  tag : Nat
  deriving DecidableEq, Repr

/-- Reads a launch message. -/
def LaunchMsg.read (r : List Byte) : LaunchMsg :=
  { entry := word (recNat 0 8 r), args := word (recNat 8 8 r), ext := recNat 0x10 4 r % 2 ^ 29, waita := recNat 0x14 2 r,
    waitb := recNat 0x16 2 r, sig := recNat 0x18 2 r, bgrp := recNat 0x1A 1 r % 16, tag := recNat 0x1C 4 r }

/-- The group a message would launch, under an id. -/
def LaunchMsg.group (m : LaunchMsg) (tgid : Nat) (waits : List Nat) : Group :=
  { tgid := tgid, entry := m.entry, args := m.args, ext := m.ext, sig := m.sig,
    bgrp := if m.ext / 2 ^ 28 % 2 = 1 then 0 else m.bgrp, waits := waits, started := [], ended := 0 }

/-! ## The checks (R32) -/

/-- The entry lies in the partition's context. -/
def State.entryOk (s : State) (p : Part) (va : Word) : Bool :=
  fld 0 3 va == 0 && s.isHere (devField va) &&
    (if region va then p.hasCol (offset va / 2 ^ 26) && offset va % 2 ^ 26 < 0x1800000 else 0x100000 ≤ offset va)

/-- A fourth live task of one barrier group would stand on one core. -/
def State.barFull (s : State) (p : Part) (g : Group) : Bool :=
  let same := p.groups.filter fun x => x.bgrp == g.bgrp && !x.svc
  !g.svc && 3 ≤ same.length && (p.footprint g).any fun cl =>
    (upFrom 0 g.blocksPer).any fun b => (upFrom 0 g.coresPer).any fun c =>
      3 ≤ (same.filter fun x => s.liveOn p x cl b c).length

/-- Group entries in launch queue `prio` of a logical cluster: groups with a task there that has not started. An entry
stops counting toward the 32 of QFULL once the cluster's last task of its group has started, DESIGN CHOICE, since the spec
does not say when it leaves the queue (R32, log 75). -/
def Part.queue (p : Part) (cl prio : Nat) : List Group :=
  p.groups.filter fun g => g.prio == prio && (p.footprint g).contains cl && lookup 0 g.started cl < g.perCluster

/-- The code of R32 that a message earns. -/
def State.launchCode (s : State) (p : Part) (m : LaunchMsg) : Nat :=
  let g := m.group 0 []
  if s.entryOk p m.entry = false then 1
  else if 24 < g.blocksPer ∨ p.w < g.width ∨ p.h < g.rowsPer * g.stages then 2
  else if 4095 < m.waita ∨ 4095 < m.waitb ∨ 4095 < m.sig ∨ (m.sig ≠ 0 ∧ (m.sig = m.waita ∨ m.sig = m.waitb)) then 3
  else if m.sig ≠ 0 ∧ p.token m.sig = .pending then 4
  else if s.barFull p g then 5
  else if (p.footprint g).any fun cl => 32 ≤ (p.queue cl g.prio).length then 6
  else if 65535 ≤ p.groups.length then 7
  else 0

/-- The next group id: ascending from where the last ended, wrapping after 65535, skipping live ones (R33); fuel bounds
the search. -/
def Part.freeId (p : Part) : Nat → Nat → Nat
  | 0, n => n
  | f + 1, n =>
    if p.groups.any fun g => g.tgid == n then p.freeId f (if n = 65535 then 1 else n + 1) else n

/-- The launch status record (R33). -/
def statusRecord (code tgid : Nat) (m : LaunchMsg) : List Byte :=
  bytesOf 1 6 ++ bytesOf 1 code ++ bytesOf 2 tgid ++ bytesOf 4 m.tag ++ bytesOf 8 m.entry.toNat ++ bytesOf 16 0

/-- An accepted launch: its id, its group queued, its token PENDING; with a FAILED wait token it is killed at once
(R31, R33). -/
def State.takeIn (s : State) (pn : Nat) (p : Part) (m : LaunchMsg) : Nat × State :=
  let id := p.freeId p.groups.length p.nextTgid
  let toks := [m.waita, m.waitb].filter fun t => t != 0
  let g := m.group id (toks.filter fun t => p.token t == .pending)
  let t := s.modPart pn fun p =>
    { p with groups := p.groups ++ [g], nextTgid := if id = 65535 then 1 else id + 1,
             tokens := if m.sig = 0 then p.tokens else insert .pending p.tokens m.sig }
  (id, if toks.any fun t => p.token t == .failed then t.killGroup pn id else t)

/-- Changes the launch page of a partition. -/
def State.modPage (s : State) (pn : Nat) (f : LaunchPage → LaunchPage) : State :=
  { s with host := { s.host with pages := insert (f (lookup LaunchPage.reset s.host.pages pn)) s.host.pages pn } }

/-- The status record reaches whoever sent the message: a task's inbox, or the launch page, which signals its vector
(R33, R399, R400); none where the record is held. -/
def State.answerLaunch (s : State) (pn : Nat) (l : Launch) (r : List Byte) : Option State :=
  match l.sender with
  | some (k, ep, _) => s.postTo k ep r
  | none =>
    some ((s.modPage pn fun y => { y with record := r, busy := false, valid := true }).signalOwner (16 + pn))

/-- LAUNCH_MESSAGE: the endpoint takes the oldest message (R31 to R33); it takes none while the partition is out
(R421). -/
def execLaunchMessage (part : BitVec 4) (s : State) : Result :=
  let pn := part.toNat
  match s.part? pn with
  | none => .next s
  | some p =>
    match p.launches with
    | [] => .next s
    | l :: rest =>
      if p.out.isSome then .next s
      else
        let m := LaunchMsg.read l.bytes
        let code := s.launchCode p m
        let (id, t) := if code = 0 then s.takeIn pn p m else (0, s)
        let u := t.modPart pn fun p => { p with launches := rest }
        match u.answerLaunch pn l (statusRecord code id m) with
        | some v => .next v
        | none => .next s

/-! ## Task start (R37 to R39) -/

/-- The leading unstarted task of a launch queue: its group, and its number in the cluster (R37). -/
def Part.leading (p : Part) (cl prio : Nat) : Option (Group × Nat) :=
  ((p.queue cl prio).find? fun g => g.waits == []).map fun g => (g, lookup 0 g.started cl)

/-- The task a free slot starts: of the first queue, from priority 7 down, whose leading task is bound for its core and
needs its kind of slot (R38). -/
def State.startFor (s : State) (p : Part) (k : Nat) : Option Group :=
  let cl := clusterOf (lcolOf k)
  let lowest := (upFrom (coreOf k * 4) 3).find? fun j => (s.slot j).status == .free
  [7, 6, 5, 4, 3, 2, 1, 0].findSome? fun prio =>
    match p.leading cl prio with
    | some (g, n) =>
      if n / g.coresPer == lcolOf k % 24 && n % g.coresPer == coreNo k &&
          (if g.svc then slotNo k == 3 else lowest == some k) then some g else none
    | none => none

/-- COORD of a task of a group in a slot of its partition (R27, R34). -/
def coordFor (pn : Nat) (p : Part) (g : Group) (k : Nat) : Word :=
  let cl := clusterOf (lcolOf k)
  let row := cl / 24 - p.py
  word (g.tgid * 2 ^ 48 + pn * 2 ^ 44 + slotNo k * 2 ^ 42 + lcolOf k * 2 ^ 27 + row / g.rowsPer * 2 ^ 19 +
    row % g.rowsPer * 2 ^ 13 + (cl % 24 - p.px) * 2 ^ 8 + lcolOf k % 24 * 2 ^ 3 + coreNo k)

/-- TGEXT of a group (R28). -/
def extFor (g : Group) : Word := word (g.sig * 2 ^ 36 + g.bgrp * 2 ^ 32 + g.ext)

/-- A slot in which a task starts; blocks that the task before it left in flight still land (R39, R43). -/
def Slot.started (t : Slot) (coord ext : Word) (x : Task) : Slot :=
  let u := { t with
    status := .ready, cond := .none, regs := (t.startOf x).regs, pc := (t.startOf x).pc, loops := [], sig := 0xFFFF,
    savedSig := 0xFFFF, flight := blocksIn t.flight, wd := 0, stoch := 0, mark := t.log.seq, replays := [], charge := none,
    charged := [], task := some x, bar := .away, redo := none, quar := false, fuseOut := false,
    trap := { t.trap with status := 0 },
    sys := { t.sys with coord := coord, tgext := ext, fpflags := 0, chkint := 0 } }
  { u with snap := some (u.startOf x) }

/-- TASK_START: a free slot takes the task that the launch queues offer it (R38, R39). -/
def execTaskStart (slot : Nat) (s : State) : Result :=
  match s.partAt (lcolOf slot) with
  | none => .next s
  | some (pn, p) =>
    if (s.slot slot).status ≠ .free ∨ p.out.isSome ∨ s.mc.stopped ∨ s.mc.unplaced.contains (lcolOf slot) then .next s
    else
      match s.startFor p slot with
      | none => .next s
      | some g =>
        let cl := clusterOf (lcolOf slot)
        let more := fun (x : Group) => { x with started := insert (lookup 0 x.started cl + 1) x.started cl }
        let t := s.modPart pn fun p => { p with groups := updateIf (fun x => x.tgid == g.tgid) more p.groups }
        let t := t.modSlot slot fun y => y.started (coordFor pn p g slot) (extFor g) { entry := g.entry, args := g.args }
        let t := t.modLog slot fun es => es.map fun e => { e with loose := [] }
        .next (t.modCore (coreOf slot) fun c =>
          { c with view := c.view.filter fun l => l.slot != slotNo slot, now := max c.now s.time })

/-! ## Waking (R42) -/

/-- The condition of slot k's sleep holds. A barrier's members wake at its release, FUSE with its gang or its limit, and
ACQF and accesses behind a migrating page read again, each by an event of its own. -/
def State.condHolds (s : State) (k : Nat) : Bool :=
  let t := s.slot k
  match t.cond with
  | .record => t.ringHeld != 0 || !t.inboxOn
  | .job id => s.jobState k id == 0 || s.jobState k id == 3
  | .fence tok => !s.unsettled k fun e => e.before tok
  | .generation g v => genPassed (s.barOf (s.partNoOf k) g).gen v
  | .work => !s.ownWork k
  | .logRoom => (t.log.room 80).isSome
  | .phase => s.phaseDone (coreOf k) (s.clockOf (coreOf k))
  | .published w q => reached (s.slot w).pub q || s.lost.contains (lcolOf w)
  | .entries => s.answered k
  | .release => s.answered k || t.log.entries.any Entry.isRefused
  | .lines _ => !s.linesWait (coreOf k)
  | .removed => !s.removedLeft (s.partNoOf k)
  | .answer due => due ≤ s.time
  | .flagSeen _ => true
  | .flagWord key _ => s.isLost key
  | .layerIdle l => !s.layerBusy (s.partNoOf k) l
  | .none | .barrier | .gang _ _ | .migration _ => false

/-- SLOT_WAKE: a sleeping slot whose condition has come to hold becomes READY (R42); none does before its partition
has resumed (R421, R422). -/
def execSlotWake (slot : Nat) (s : State) : Result :=
  if (s.slot slot).status = .asleep ∧ s.condHolds slot ∧ s.stillOut slot = false then .next (s.wake slot) else .next s

end Sys2Proof.Machine
end

