-- ==== Sys2Proof/Machine/Hosts.lean ====
section
/-! DEFINITION. Host ports: CXL.mem (R386, R387, R434, R444), the register space (R388), ownership (R389 to R392), launch
pages (R399), MSI-X (R400), links and configuration space (R385, R391). -/

namespace Sys2Proof.Machine

/-! ## Ports -/

/-- A host port. -/
def State.port (s : State) (p : Nat) : Port := lookup Port.reset s.host.ports p

/-- Changes a host port. -/
def State.modPort (s : State) (p : Nat) (f : Port → Port) : State :=
  { s with host := { s.host with ports := insert (f (s.port p)) s.host.ports p } }

/-- The port is the owner's. -/
def State.isOwner (s : State) (p : Nat) : Bool := s.host.owned && s.host.owner == p

/-- A dropped write of a port that does not own the device (R392). -/
def State.dropWrite (s : State) (p addr : Nat) : State :=
  s.modPort p fun x => { x with dropped := satInc 64 x.dropped, dropAddr := addr }

/-- A launch page. -/
def State.page? (s : State) (pn : Nat) : LaunchPage := lookup LaunchPage.reset s.host.pages pn

/-- Cycles in a number of microseconds at the core clock in force (R2). -/
def State.micros (s : State) (n : Nat) : Nat := n * s.mc.clock

/-! ## CXL.mem (R386, R387) -/

/-- The HBM byte that a host physical address reaches: past the base, the interleave undone; none outside the range, and for an
access that leaves its granule (R386). -/
def Decoder.byteOf (d : Decoder) (a n : Nat) : Option Nat :=
  let x := a - d.base
  if a < d.base ∨ d.base + d.size < a + n ∨ (d.ways ≠ 1 ∧ d.gran < x % d.gran + n) then none
  else some (x / (d.gran * d.ways) * d.gran + x % d.gran)

/-- The HBM bytes that an access of a port reaches: none with its link down, and none where its decoder, or hbmtop, ends
(R386). -/
def State.hostByte (s : State) (port addr n : Nat) : Option Nat :=
  if (s.port port).up = false then none
  else ((s.port port).hdm.byteOf addr n).filter fun k => decide (k + n ≤ s.mc.hbmtop)

/-- The CXL.mem access that the end of a repair lets go on: the first that waits at a channel which is held no more
(R444). -/
def State.nextWaiting (s : State) : Option HostAccess :=
  s.host.waiting.find? fun x => x.asker == .port && !s.channelHeld (channelOf x.key) && s.isFirst x

/-- That access is the given one. -/
def State.accessTurn (s : State) (port addr n : Nat) (bytes : Option (List Byte)) : Option HostAccess :=
  s.nextWaiting.filter fun x => x.port == port && x.addr == addr && x.len == n && x.bytes == bytes

/-- An access to a channel waits behind its repair, and behind those that wait there already, in order of arrival (R444). -/
def State.mustWait (s : State) (k : Nat) : Bool :=
  s.channelHeld (channelOf k) || s.host.waiting.any fun x => x.ni == channelOf k

/-- First byte of the reserve, which ends at hbmtop (R434). -/
def State.reserveAt (s : State) : Nat := s.mc.hbmtop - 0xFD8000000

/-- What a host reads of HBM: the home's raw bytes, with the poison indication; the reserve reads as poison, its bytes free
(R387, R434). -/
def State.hostRead (s : State) (k n : Nat) : State :=
  if s.reserveAt < k + n then
    { s with fresh := s.fresh + 1, host := { s.host with
      readData := (upFrom 0 n).map fun i => Config.freeByte (s.fresh * 2 ^ 64 + i),
      readPoison := true } }
  else { s with host := { s.host with readData := s.mem.bytes k n, readPoison := s.anyPoison k n } }

/-- CXL_MEM_READ at a host physical address: the home answers, after the repair of its channel and what waits there
(R386, R387, R444). -/
def execCxlMemRead (port : BitVec 3) (addr len : Nat) (s : State) : Result :=
  let p := port.toNat
  match s.accessTurn p addr len none with
  | some x => .next ((s.unwait x).hostRead x.key len)
  | none =>
    match s.hostByte p addr len with
    | none => .next s
    | some k =>
      if s.mustWait k then .next (s.wait { port := p, addr := addr, key := k, len := len, bytes := none })
      else .next (s.hostRead k len)

/-- CXL_MEM_WRITE at a host physical address: straight to home from the owner, after the repair of its channel and what
waits there; dropped and counted from another port, dropped in the reserve (R386, R387, R392, R434, R444). -/
def execCxlMemWrite (port : BitVec 3) (addr : Nat) (bytes : List Byte) (s : State) : Result :=
  let p := port.toNat
  let n := bytes.length
  match s.accessTurn p addr n (some bytes) with
  | some x => .next ((s.unwait x).homeWrite none x.key bytes)
  | none =>
    match s.hostByte p addr n with
    | none => .next s
    | some k =>
      if s.isOwner p = false then .next (s.dropWrite p addr)
      else if s.reserveAt < k + n then .next s
      else if s.mustWait k then .next (s.wait { port := p, addr := addr, key := k, len := n, bytes := some bytes })
      else .next (s.homeWrite none k bytes)

/-! ## What BAR0 reads (R388, R389, R393, R399) -/

/-- OWNSTAT as a port reads it (R389). -/
def State.ownstat (s : State) (port : Nat) : Word :=
  word (s.host.owned.toNat + (s.isOwner port).toNat * 2 + s.host.owner * 2 ^ 8 + s.host.hpend.toNat * 2 ^ 11 +
    s.host.target * 2 ^ 12 + s.host.epoch % 2 ^ 32 * 2 ^ 32)

/-- MBXSTAT of a port (R393). -/
def Port.mbxstat (p : Port) : Word := word (p.busy.toNat + p.result * 2 ^ 8)

/-- LSTAT of a launch page (R399). -/
def LaunchPage.lstat (y : LaunchPage) : Word := word (y.busy.toNat + y.valid.toNat * 2 + y.count * 2 ^ 32)

/-- The code of a token state in a launch page (R399). -/
def Token.code : Token → Nat
  | .done => 0
  | .pending => 1
  | .failed => 2

/-- Byte n of the token states of a partition (R399). -/
def Part.tokenByte (p : Part) (n : Nat) : Byte :=
  BitVec.ofNat 8 (((upFrom 0 4).map fun i => (p.token (4 * n + i)).code * 4 ^ i).sum)

/-- The identity block as a port reads it (R388). -/
def State.identity (s : State) (port ofs : Nat) : Word :=
  if ofs = 0x00 then word s.mc.device
  else if ofs = 0x08 then word s.mc.hbmtop
  else if ofs = 0x10 then word s.mc.secver
  else if ofs = 0x18 then word (s.port port).dropped
  else if ofs = 0x20 then word (s.port port).dropAddr
  else 0

/-- A launch page's quad (R399). -/
def State.pageQuad (s : State) (pn ofs : Nat) : Word :=
  let y := s.page? pn
  if ofs < 0x40 then word (recNat ofs 8 y.msg)
  else if ofs = 0x48 then y.lstat
  else if ofs = 0x60 then y.watch
  else if 0x80 ≤ ofs ∧ ofs < 0xA0 then word (recNat (ofs - 0x80) 8 y.record)
  else if 0x400 ≤ ofs ∧ ofs < 0x800 then
    match s.part? pn with
    | some p => word (leNat ((upFrom (ofs - 0x400) 8).map p.tokenByte))
    | none => 0
  else 0

/-- The register at an 8-byte aligned offset of BAR0; zero at unlisted offsets (R388). -/
def State.barQuad (s : State) (port ofs : Nat) : Word :=
  if ofs < 0x1000 then s.identity port ofs
  else if ofs = 0x1000 then s.ownstat port
  else if ofs = 0x2000 then word (s.port port).mbxcmd
  else if ofs = 0x2008 then (s.port port).mbxstat
  else if 0x2100 ≤ ofs ∧ ofs < 0x2200 then word (recNat (ofs - 0x2100) 8 (s.port port).request)
  else if 0x2200 ≤ ofs ∧ ofs < 0x2300 then word (recNat (ofs - 0x2200) 8 (s.port port).response)
  else if 0x10000 ≤ ofs ∧ ofs < 0x20000 then s.pageQuad ((ofs - 0x10000) / 0x1000) (ofs % 0x1000)
  else if 0x100000 ≤ ofs ∧ ofs < 0x110000 then word ((s.port port).msix.num ofs 8)
  else 0

/-- What a read of n bytes at an offset of BAR0 returns: 4 or 8 aligned bytes of a register; none completes as an
unsupported request (R388). -/
def State.barRead (s : State) (port ofs n : Nat) : Option Word :=
  if (n ≠ 4 ∧ n ≠ 8) ∨ ofs % n ≠ 0 then none
  else some (word ((s.barQuad port (ofs / 8 * 8)).toNat / 2 ^ (8 * (ofs % 8)) % 2 ^ (8 * n)))

/-! ## Ownership (R390, R391) -/

/-- The epoch advances, and vector 0 is signalled on every port (R390, R400). -/
def State.newEpoch (s : State) (f : HostSide → HostSide) : State :=
  let h := f s.host
  { s with host := { h with epoch := (h.epoch + 1) % 2 ^ 32 } }.signalAll 0

/-- The OWNCTL write that the MC takes next: round after round, in one by ascending port, of one port in order of arrival
(R390). -/
def HostSide.nextOwn (h : HostSide) : Option OwnWrite :=
  h.ownWrites.find? fun w => h.ownWrites.all fun x => w.ends < x.ends || (w.ends == x.ends && w.port ≤ x.port)

/-- Wafer time at which the round of 1 µs under way ends (R390). -/
def State.roundEnds (s : State) : Nat := (s.time / s.micros 1 + 1) * s.micros 1

/-- An OWNCTL write: one that reaches the MC waits for the end of its round, and then takes effect when it is the next
(R390, log 49). -/
def State.ownctl (s : State) (port op target : Nat) (effect : State → State) : Result :=
  match s.host.nextOwn.filter fun w => w.port == port && w.op == op && w.target == target && decide (w.ends ≤ s.time) with
  | some w => .next (effect { s with host := { s.host with ownWrites := s.host.ownWrites.erase w } })
  | none =>
    if (s.port port).up then
      .next { s with host := { s.host with
        ownWrites := s.host.ownWrites ++ [{ port := port, op := op, target := target, ends := s.roundEnds }] } }
    else .next s

/-- CLAIM (R390). -/
def execClaim (port : BitVec 3) (s : State) : Result :=
  s.ownctl port.toNat 1 0 fun s =>
    if s.host.owned then s else s.newEpoch fun h => { h with owned := true, owner := port.toNat }

/-- RELEASE (R390). -/
def execRelease (port : BitVec 3) (s : State) : Result :=
  s.ownctl port.toNat 2 0 fun s =>
    if s.isOwner port.toNat then s.newEpoch fun h => { h with owned := false, hpend := false } else s

/-- HANDOVER (R390). -/
def execHandover (port target : BitVec 3) (s : State) : Result :=
  s.ownctl port.toNat 3 target.toNat fun s =>
    if s.isOwner port.toNat && target != port then
      { s with host := { s.host with hpend := true, target := target.toNat, handoverAt := s.time } }
    else s

/-- A pending handover has lapsed: 100 ms have passed (R390). -/
def State.handoverOver (s : State) : Bool := s.host.hpend && s.host.handoverAt + s.micros 100000 ≤ s.time

/-- ACCEPT (R390). -/
def execAccept (port : BitVec 3) (s : State) : Result :=
  s.ownctl port.toNat 4 0 fun s =>
    if s.host.hpend && s.host.target == port.toNat && !s.handoverOver then
      s.newEpoch fun h => { h with owner := port.toNat, hpend := false }
    else s

/-- A write to OWNCTL: bits [2:0] give the operation, and bits [6:4] the port of a HANDOVER; other operations are ignored
(R390). -/
def State.ownctlWrite (s : State) (port : BitVec 3) (b : Byte) : Result :=
  let op := b.toNat % 8
  if op = 1 then execClaim port s
  else if op = 2 then execRelease port s
  else if op = 3 then execHandover port (b.extractLsb' 4 3) s
  else if op = 4 then execAccept port s
  else .next s

/-- HANDOVER_LAPSE (R390). -/
def execHandoverLapse (s : State) : Result :=
  if s.handoverOver then .next { s with host := { s.host with hpend := false } } else .next s

/-- OWNER_LINK_LOSS: the owner's link has been down for 1 s (R391). -/
def execOwnerLinkLoss (s : State) : Result :=
  match (s.port s.host.owner).downAt with
  | some w =>
    if s.host.owned ∧ w + s.micros 1000000 ≤ s.time then
      .next (s.newEpoch fun h => { h with owned := false, hpend := false })
    else .next s
  | none => .next s

/-- LINK_DOWN (R391). -/
def execLinkDown (port : BitVec 3) (s : State) : Result :=
  if (s.port port.toNat).up then .next (s.modPort port.toNat fun x => { x with up := false, downAt := some s.time })
  else .next s

/-- LINK_UP (R385). -/
def execLinkUp (port : BitVec 3) (s : State) : Result :=
  .next (s.modPort port.toNat fun x => { x with up := true, downAt := none })

/-! ## Register writes (R388, R392, R393, R399) -/

/-- Replaces bytes of a buffer from an offset. -/
def patch (buf : List Byte) (at_ : Nat) (bs : List Byte) : List Byte :=
  (upFrom 0 buf.length).map fun i => if at_ ≤ i ∧ i < at_ + bs.length then bs.getD (i - at_) 0 else buf.getD i 0

/-- LDOOR: submits the launch page's message (R392, R399). -/
def execLdoor (port : BitVec 3) (part : BitVec 4) (s : State) : Result :=
  let pn := part.toNat
  if (s.port port.toNat).up = false then .next s
  else if s.isOwner port.toNat = false then .next (s.dropWrite port.toNat (0x10040 + 0x1000 * pn))
  else if (s.part? pn).isNone ∨ (s.page? pn).busy then .next s
  else
    let msg := (s.page? pn).msg
    let t := s.modPage pn fun y => { y with busy := true, valid := false, count := (y.count + 1) % 2 ^ 32 }
    .next (t.modPart pn fun p => { p with launches := p.launches ++ [{ bytes := msg, sender := none }] })

/-- A write to a launch page but for its LDOOR: the message while no submission is in progress, and LWATCH (R399). -/
def State.pageWrite (s : State) (port pn ofs : Nat) (bs : List Byte) : State :=
  if s.isOwner port = false then s.dropWrite port (0x10000 + 0x1000 * pn + ofs)
  else if (s.part? pn).isNone then s
  else if ofs < 0x40 then s.modPage pn fun y => if y.busy then y else { y with msg := patch y.msg ofs bs }
  else if 0x60 ≤ ofs ∧ ofs < 0x68 then
    s.modPage pn fun y => { y with watch := word (leNat (patch (bytesOf 8 y.watch.toNat) (ofs - 0x60) bs)) &&& 0x1FFF }
  else s

/-- A write to a port's own mailbox block: dropped while it is busy, else kept; the write of the command code hands the
request to the MC, with whether the port owns the device then (R392, R393). -/
def State.mailboxWrite (s : State) (port ofs : Nat) (bs : List Byte) : State :=
  if (s.port port).busy then s
  else if 0x2100 ≤ ofs ∧ ofs < 0x2200 then s.modPort port fun x => { x with request := patch x.request (ofs - 0x2100) bs }
  else if ofs = 0x2000 then
    let t := s.modPort port fun x => { x with mbxcmd := (bs.getD 0 0).toNat, cmdOwned := s.isOwner port, busy := true }
    { t with host := { t.host with order := t.host.order ++ [port] } }
  else s

/-- BAR0 after a write of a value: an address of 16 MiB alignment over the bits that say 64 bits wide and not prefetchable
(R385; PCIe's layout, PRESUMED, log 79). -/
def barOf (v : Nat) : Word := word (v % 2 ^ 64 / 2 ^ 24 * 2 ^ 24 + 4)

/-- A write to configuration space: MSI-X Enable and Function Mask in bits 31 and 30 of the capability's first dword at
0x00, the HDM decoder at 0x10 (base), 0x18 (size) and 0x20 (ways 2^[3:0], granule 256 × 2^[7:4]), and BAR0 in the 8 bytes at
0x28, places that the model names (R385, R386, R400; DESIGN CHOICE, log 79). -/
def Port.configWrite (x : Port) (ofs : Nat) (bs : List Byte) : Port :=
  let v := leNat bs
  if ofs = 0 then { x with msixOn := v / 2 ^ 31 % 2 == 1, msixMask := v / 2 ^ 30 % 2 == 1 }.firePending
  else if ofs = 0x10 ∧ bs.length = 8 then { x with hdm := { x.hdm with base := v } }
  else if ofs = 0x18 ∧ bs.length = 8 then { x with hdm := { x.hdm with size := v } }
  else if ofs = 0x20 ∧ v % 16 ≤ 3 then { x with hdm := { x.hdm with ways := 2 ^ (v % 16), gran := 256 * 2 ^ (v / 16 % 16) } }
  else if 0x28 ≤ ofs ∧ ofs < 0x30 then
    { x with bar0 := barOf (leNat (patch (bytesOf 8 x.bar0.toNat) (ofs - 0x28) bs)) }
  else x

/-- The register at an 8-byte aligned offset of configuration space: the MSI-X capability with its table of 64 vectors and
its pending bits in BAR0, the HDM decoder, and BAR0; zero elsewhere (R385, R388, R400; log 79). -/
def Port.configQuad (x : Port) (ofs : Nat) : Word :=
  if ofs = 0x00 then word (0x11 + 63 * 2 ^ 16 + x.msixMask.toNat * 2 ^ 30 + x.msixOn.toNat * 2 ^ 31 + 0x100000 * 2 ^ 32)
  else if ofs = 0x08 then word 0x108000
  else if ofs = 0x10 then word x.hdm.base
  else if ofs = 0x18 then word x.hdm.size
  else if ofs = 0x20 then word (Nat.log2 x.hdm.ways + 16 * Nat.log2 (x.hdm.gran / 256))
  else if ofs = 0x28 then x.bar0
  else 0

/-- What a read of 4 or 8 aligned bytes of configuration space returns (R385). -/
def Port.configRead (x : Port) (ofs n : Nat) : Option Word :=
  if (n ≠ 4 ∧ n ≠ 8) ∨ ofs % n ≠ 0 then none
  else some (word ((x.configQuad (ofs / 8 * 8)).toNat / 2 ^ (8 * (ofs % 8)) % 2 ^ (8 * n)))

/-- REGISTER_WRITE: an aligned write of 4 or 8 bytes to configuration space, or in BAR0 to OWNCTL, the mailbox block, a
launch page or the MSI-X table; LDOOR has an event of its own, and writes to read-only and unlisted offsets are dropped
(R388). -/
def execRegisterWrite (port : BitVec 3) (register : Bool × Nat) (bytes : List Byte) (s : State) : Result :=
  let p := port.toNat
  let ofs := register.2
  let n := bytes.length
  if (s.port p).up = false ∨ (n ≠ 4 ∧ n ≠ 8) ∨ ofs % n ≠ 0 then .next s
  else if register.1 then .next (s.modPort p fun x => x.configWrite ofs bytes)
  else if ofs = 0x1008 then s.ownctlWrite port (bytes.getD 0 0)
  else if 0x2000 ≤ ofs ∧ ofs < 0x3000 then .next (s.mailboxWrite p ofs bytes)
  else if 0x10000 ≤ ofs ∧ ofs < 0x20000 then
    .next (if 0x40 ≤ ofs % 0x1000 ∧ ofs % 0x1000 < 0x48 then s
           else s.pageWrite p ((ofs - 0x10000) / 0x1000) (ofs % 0x1000) bytes)
  else if 0x100000 ≤ ofs ∧ ofs < 0x100400 then
    .next (s.modPort p fun x => { x with msix := x.msix.writeAll ofs bytes }.firePending)
  else .next s

end Sys2Proof.Machine
end

