-- ==== Sys2Proof/Machine/Mailbox.lean ====
section
/-! DEFINITION. The MC mailbox (R393) and the commands that create, destroy and set up partitions (R394 to R398) and
stage firmware (R401). -/

namespace Sys2Proof.Machine

/-! ## Commands (R393) -/

/-- Results of commands. -/
def resPexists : Nat := 1
def resOverlap : Nat := 2
def resRange : Nat := 3
def resNotOwner : Nat := 4
def resBadCmd : Nat := 5
def resNoPart : Nat := 6
def resBadSig : Nat := 7
def resRollback : Nat := 8
def resSwState : Nat := 9
def resBadImage : Nat := 10
def resNoRes : Nat := 11
def resNoStage : Nat := 12

/-- The MC now takes the command of a port: it is the oldest, and it has this code. -/
def State.takes (s : State) (port code : Nat) : Bool :=
  s.host.order.head? == some port && (s.port port).busy && (s.port port).mbxcmd == code

/-- The MC finishes a command: the response, zero beyond its end, on OK; the result; busy clear; vector 1. -/
def State.finish (s : State) (port result : Nat) (resp : Option (List Byte)) : State :=
  let t := s.modPort port fun x =>
    { x with busy := false, result := result,
             response := match resp with
               | some r => (r ++ List.replicate 256 0).take 256
               | none => x.response }
  { t with host := { t.host with order := t.host.order.filter fun p => p != port } }.signal port 1

/-- Answers a command: NOTOWNER to a port that did not own the device when it wrote the command, else what the command
gives; a refused command changes nothing (R392, R393; log 88). -/
def State.command (s : State) (port code : Nat) (f : List Byte → Except Nat (List Byte × State)) : Result :=
  if s.takes port code = false then .next s
  else if (s.port port).cmdOwned = false then .next (s.finish port resNotOwner none)
  else
    match f (s.port port).request with
    | .ok r => .next (r.2.finish port 0 (some r.1))
    | .error c => .next (s.finish port c none)

/-- The partition that byte 0 of a request names. -/
def State.named (s : State) (r : List Byte) : Except Nat (Nat × Part) :=
  match s.part? (recNat 0 1 r) with
  | some p => .ok (recNat 0 1 r, p)
  | none => .error resNoPart

/-- The same, not while it is out (R395). -/
def State.namedIn (s : State) (r : List Byte) : Except Nat (Nat × Part) :=
  match s.named r with
  | .ok x => if x.2.out.isSome then .error resSwState else .ok x
  | .error c => .error c

/-! ## PCREATE (R394) -/

/-- Rectangles of partitions meet. -/
def Part.meets (p : Part) (px py w h : Nat) : Bool :=
  p.px < px + w && px < p.px + p.w && p.py < py + h && py < p.py + p.h

/-- The root is 8 KiB aligned and in HBM (R404). -/
def State.rootOk (s : State) (root : Nat) : Bool := root % 8192 == 0 && root + 8192 ≤ s.mc.hbmtop

/-- A new partition (R31, R157, R394, R396, R426). -/
def newPart (r : List Byte) : Part :=
  let w := recNat 3 1 r
  let h := recNat 4 1 r
  let key := word (recNat 0x18 8 r) &&& writable 0x041
  { px := recNat 1 1 r, py := recNat 2 1 r, w := w, h := h, request := r.take 64, root := recNat 8 8 r,
    trapvec := word (recNat 0x10 8 r) &&& writable 0x040, bankkey := key, bankkeyKept := key,
    ltbase := word (recNat 0x20 8 r) &&& writable 0x042, saveest := word (Config.saveEstimate (w * h * 24) % 2 ^ 32),
    devmap := List.replicate 16 0, tokens := [], groups := [], nextTgid := 1, launches := [], bars := [], layers := [],
    out := none, calm := 0, resumeAt := 0, switchReq := none, slice := none }

/-- A slot of a new partition. -/
def newSlot (r : List Byte) : Slot :=
  let fld3 := fun (o n : Nat) (old : Word) => fieldWrite n 0xFFFFFFFFFFFFFFFF (word (recNat o 8 r)) old
  let inbox := fld3 0x28 0x009 0 &&& 0x71FC01
  { Slot.reset with sys := { SlotSys.reset with
      slotcfg := fld3 0x38 0x002 SlotSys.reset.slotcfg, inbox := inbox,
      prgn := SlotSys.reset.prgn.set 0 (fld3 0x30 0x010 0) } }

/-- Slots of the columns of a partition. -/
def Part.slotKeys (p : Part) : List Nat := p.cols.flatMap fun c => upFrom (c * 32) 32

/-- A slot lies in the partition. -/
def Part.hasSlot (p : Part) (k : Nat) : Bool := p.hasCol (lcolOf k)

/-- Every slot of a partition becomes this one; the table lists what differs from reset. -/
def State.fillSlots (s : State) (p : Part) (x : Slot) : State :=
  let rest := s.slots.filter fun e => !p.hasSlot e.1
  { s with slots := if x = Slot.reset then rest else (p.slotKeys.reverse).foldl (fun m k => insert x m k) rest }

/-- PCREATE (R392 to R394, R402). -/
def execPcreate (port : BitVec 3) (s : State) : Result :=
  s.command port.toNat 0x01 fun r =>
    let n := recNat 0 1 r
    let p := newPart r
    if (s.part? n).isSome then .error resPexists
    else if 15 < n ∨ p.w = 0 ∨ p.h = 0 ∨ 24 < p.px + p.w ∨ 35 < p.py + p.h ∨ s.rootOk p.root = false then .error resRange
    else if s.parts.any fun e => e.2.meets p.px p.py p.w p.h then .error resOverlap
    else .ok ([], ((s.setPart n p).fillSlots p (newSlot r)).measure 4 (r.take 64))

/-! ## PDESTROY and PINFO (R393, R421) -/

/-- Ends every group of a partition as a kill (R40). -/
def State.killAll (s : State) (pn : Nat) : State :=
  (((s.part? pn).map fun p => p.groups.map (·.tgid)).getD []).foldl (fun s t => s.killGroup pn t) s

/-- Drains the logs of a partition to home. -/
def State.drainAll (s : State) (p : Part) : State :=
  ((s.slots.filter fun e => p.hasSlot e.1 && e.2.log.entries != []).map (·.1)).foldl
    (fun s k => s.crystWhere k fun _ => true) s

/-- An entry of the partition still waits for its home. -/
def State.drainStalls (s : State) (p : Part) : Bool :=
  s.slots.any fun e => p.hasSlot e.1 && s.stalledAt e.1 fun _ => true

/-- What is left of a partition goes: slots, views, messages, journals; a lost column that has a place is one no more. -/
def State.dropPart (s : State) (pn : Nat) (p : Part) : State :=
  let out := fun (k : Nat) => !p.hasSlot k
  { s with
    slots := s.slots.filter fun e => out e.1
    cores := s.cores.map fun (e : Nat × Core) =>
      if p.hasCol (e.1 / 8) then (e.1, { e.2 with issuing := none, view := [], phase := none }) else e
    parts := erase s.parts pn, journal := s.journal.filter fun r => r.part != pn
    tlb := s.tlb.filter fun c => c.part != pn, copies := s.copies.filter fun c => out c.slot
    jobs := s.jobs.filter fun j => out j.slot, masks := s.masks.filter fun m => out m.slot
    msgs := s.msgs.filter fun m => out m.src, lost := s.lost.filter fun c => !p.hasCol c || s.mc.unplaced.contains c }

/-- Work of a partition still runs to its completion: copies, jobs, and requests at the mask engines (R40, R421). -/
def State.workLeft (s : State) (p : Part) : Bool :=
  (s.copies.any fun c => p.hasSlot c.slot) || (s.jobs.any fun j => p.hasSlot j.slot) || s.masks.any fun m => p.hasSlot m.slot

/-- The image of a partition that is destroyed is discarded, with the copies and jobs it holds; its entries then go to homes
in its scratchpads as those of one on the wafer do (R421). -/
def State.discardImage (s : State) (pn : Nat) (p : Part) : State :=
  if p.out.isNone then s
  else
    { s.modPart pn fun p => { p with out := none } with
      copies := s.copies.filter fun c => !p.hasSlot c.slot, jobs := s.jobs.filter fun j => !p.hasSlot j.slot }

/-- PDESTROY: the groups end at once, and the command lasts until what they had in flight has run to completion and their
entries are home (R40, R393, R402, R421; log 76). -/
def execPdestroy (port : BitVec 3) (s : State) : Result :=
  let n := port.toNat
  let r := (s.port n).request
  if s.takes n 0x02 = false then .next s
  else if (s.port n).cmdOwned = false then .next (s.finish n resNotOwner none)
  else
    match s.named r with
    | .error c => .next (s.finish n c none)
    | .ok (pn, p) =>
      let t := (s.killAll pn).discardImage pn p
      let t := if t.workLeft p then t else t.drainAll p
      if t.workLeft p ∨ t.drainStalls p then .next t
      else
        let t := t.dropPart pn p
        .next (((t.modPage pn fun y => { y with busy := false }).measure 4 (r.take 1)).finish n 0 (some []))

/-- PINFO, which every port may issue: the request, and the count of live groups in the 4 bytes after it. -/
def execPinfo (port : BitVec 3) (s : State) : Result :=
  let n := port.toNat
  if s.takes n 0x03 = false then .next s
  else
    match s.named (s.port n).request with
    | .ok (_, p) => .next (s.finish n 0 (some (p.request ++ bytesOf 4 p.groups.length)))
    | .error c => .next (s.finish n c none)

/-! ## Firmware (R401) -/

/-- The digest of the image that a request of FWSTAGE names (R402; log 47). -/
def State.imageDigest (s : State) (r : List Byte) : BitVec 256 :=
  BitVec.ofNat 256 (leNat (sha3 (s.mem.bytes (recNat 0 8 r) (recNat 8 8 r))))

/-- FWSTAGE: what the signature check says, 0 where Rhalia signed, the image's security version and the digest that was
signed come with the event, since signatures and the image's layout are outside the model (log 12). The signature verifies
for the image whose bytes have that digest; an image that does not lie in HBM verifies as none (R401). -/
def execFwstage (port : BitVec 3) (verdict : Nat) (version : BitVec 64) (digest : BitVec 256) (s : State) : Result :=
  if s.takes port.toNat 0x10 = false then .next s
  else
    let s := { s with fresh := s.fresh + 1 }
    s.command port.toNat 0x10 fun r =>
      if verdict ≠ 0 ∨ s.mc.hbmtop < recNat 0 8 r + recNat 8 8 r ∨ s.imageDigest r ≠ digest then .error resBadSig
      else if version.toNat < s.mc.secver then .error resRollback
      else .ok ([], { s with mc := { s.mc with staged := some (version.toNat, digest) } })

/-! ## PDEVMAP, SLOTREG, GKILL (R395 to R398) -/

/-- PDEVMAP (R396, R402). -/
def execPdevmap (port : BitVec 3) (s : State) : Result :=
  s.command port.toNat 0x07 fun r =>
    match s.namedIn r with
    | .error c => .error c
    | .ok (pn, _) =>
      let es := (upFrom 0 16).map fun i => word (recNat (8 + 8 * i) 8 r)
      if es.any fun e => 2 ^ 22 < fld 0 22 e + fld 22 22 e then .error resRange
      else .ok ([], (s.modPart pn fun p => { p with devmap := es }).measure 4 (r.take 136))

/-- Registers of slot scope that SLOTREG writes (R397). -/
def slotRegs : List Nat := [0x002, 0x005, 0x006, 0x007, 0x008, 0x009, 0x00B, 0x00C, 0x025, 0x026] ++ upFrom 0x010 8

/-- What a field of a SLOTREG names: one of a range, or every one; none outside it (R397). -/
def wildcard (all n x : Nat) : Option (List Nat) := if x = all then some (upFrom 0 n) else if x < n then some [x] else none

/-- The cores a SLOTREG targets. -/
def Part.targetCores (p : Part) (col core : Nat) : Option (List Nat) :=
  match if col = 0xFFFF then some p.cols else if p.hasCol col then some [col] else none, wildcard 0xFF 8 core with
  | some cs, some ns => some (cs.flatMap fun c => ns.map fun n => c * 8 + n)
  | _, _ => none

/-- SLOTREG (R397). -/
def execSlotreg (port : BitVec 3) (s : State) : Result :=
  s.command port.toNat 0x08 fun r =>
    match s.namedIn r with
    | .error c => .error c
    | .ok (_, p) =>
      let n := recNat 6 2 r
      let v := word (recNat 8 8 r)
      let m := word (recNat 0x10 8 r)
      let cores := p.targetCores (recNat 2 2 r) (recNat 4 1 r)
      let answer := fun (a b : Nat) => bytesOf 4 a ++ bytesOf 4 b
      if n = 0x040 ∨ n = 0x041 ∨ n = 0x042 then
        .ok (answer 0 0, s.writeSysMasked (p.cols.headD 0 * 32) n m v)
      else
        match cores, wildcard 0xFF 4 (recNat 5 1 r) with
        | some cs, slots =>
          if n = 0x032 then .ok (answer 0 0, cs.foldl (fun s c => s.writeSysMasked (c * 4) n m v) s)
          else if slotRegs.contains n then
            match slots with
            | some ns =>
              let ks := cs.flatMap fun c => ns.map fun i => c * 4 + i
              let free := ks.filter fun k => (s.slot k).status == .free
              .ok (answer free.length (ks.length - free.length), free.foldl (fun s k => s.writeSysMasked k n m v) s)
            | none => .error resRange
          else .error resRange
        | none, _ => .error resRange

/-- GKILL_COMMAND (R398). -/
def execGkillCommand (port : BitVec 3) (s : State) : Result :=
  s.command port.toNat 0x09 fun r =>
    match s.namedIn r with
    | .error c => .error c
    | .ok (pn, p) =>
      let id := recNat 2 2 r
      if p.groups.any fun g => g.tgid == id then .ok ([1], s.killGroup pn id) else .ok ([0], s)

/-- Codes that some command defines (R393, R395, R416, R438). -/
def commandCodes : List Nat :=
  [0x01, 0x02, 0x03, 0x04, 0x05, 0x06, 0x07, 0x08, 0x09, 0x10, 0x11, 0x20, 0x21, 0x22, 0x23, 0x24, 0x30, 0x31, 0x32]

/-- BADCMD: a code that no command defines (R393). -/
def execBadcmd (port : BitVec 3) (s : State) : Result :=
  let code := (s.port port.toNat).mbxcmd
  if commandCodes.contains code then .next s else s.command port.toNat code fun _ => .error resBadCmd

end Sys2Proof.Machine
end

