-- ==== Sys2Proof/Machine/Switches.lean ====
section
/-! DEFINITION. Gang switches and context images (R416 to R426). -/

namespace Sys2Proof.Machine

/-! ## The image (R417, R418) -/

/-- Bytes of the image of a partition. -/
def imageSize (p : Part) : Nat := 0x10000 + 0x200000 * (p.w * p.h * 24)

/-- The columns of a partition, each with the address of its area in an image. -/
def imageCols (p : Part) (base : Nat) : List (Nat × Nat) :=
  p.cols.map fun c => (c, p.imageArea base c)

/-- The raw areas of an image: key of the bytes on the wafer, address in the image, length. -/
def rawAreas (p : Part) (base : Nat) : List (Nat × Nat × Nat) :=
  (imageCols p base).flatMap fun x =>
    ((upFrom 0 8).map fun c => (spadKey (x.1 * 8 + c) 0, x.2 + 0x28000 * c, 0x20000)) ++
      [(accKey x.1 0, x.2 + 0x140000, 0x40000)]

/-- The header and the opaque areas of an image: address and length. -/
def opaqueAreas (p : Part) (base : Nat) : List (Nat × Nat) :=
  (base, 0x10000) :: (imageCols p base).flatMap fun x =>
    ((upFrom 0 8).map fun c => (x.2 + 0x20000 + 0x28000 * c, 0x8000)) ++ [(x.2 + 0x180000, 0x80000)]

/-- Copies n bytes from one key to another, poison marks and all; both are line-aligned. -/
def State.copyRegion (s : State) (src dst n : Nat) : State :=
  let from_ := fun (k : Nat) => decide (src ≤ k) && decide (k < src + n)
  let to_ := fun (k : Nat) => decide (dst ≤ k) && decide (k < dst + n)
  let bytes := s.mem.filter fun e => from_ e.1
  let marks := s.poison.filter fun l => from_ (l * 64)
  { s with
    mem := bytes.foldl (fun m e => m.write e.2 (e.1 - src + dst)) (s.mem.filter fun e => !to_ e.1)
    poison := marks.foldl (fun l x => addKey (x - src / 64 + dst / 64) l) (s.poison.filter fun l => !to_ (l * 64)) }

/-- Byte at an address of the opaque areas of an image: a layout that only this W2 reads, so a free value (log 11). -/
def opaqueByte (draw a : Nat) : Byte := Config.freeByte (draw * 2 ^ 64 + a)

/-- Writes the image (R417, R420). -/
def State.saveImage (s : State) (p : Part) (base draw : Nat) : State :=
  let t := (rawAreas p base).foldl (fun s a => s.copyRegion a.1 a.2.1 a.2.2) s
  (opaqueAreas p base).foldl (fun s a => s.homeWrite none a.1 ((upFrom a.1 a.2).map (opaqueByte draw))) t

/-- The header and the opaque areas hold what the save wrote, which is what their digests tell (R418). -/
def State.intact (s : State) (p : Part) (img : Image) : Bool :=
  (opaqueAreas p img.base).all fun a => (upFrom a.1 a.2).all fun k => s.mem.read k == opaqueByte img.bytes k

/-- Writes the raw areas back (R418, R422). -/
def State.loadImage (s : State) (p : Part) (img : Image) : State :=
  (rawAreas p img.base).foldl (fun s a => s.copyRegion a.2.1 a.1 a.2.2) s

/-! ## Requests (R416) -/

/-- A switch that a port's command started has yet to finish. -/
def State.underWay (s : State) (port : Nat) : Bool :=
  s.parts.any fun e => (e.2.switchReq.bind (·.port)) == some port || (e.2.out.bind (·.back)).join == some port

/-- Takes a command whose answer comes when its last step has finished (R416). -/
def State.request (s : State) (port code : Nat) (f : List Byte → Except Nat State) : Result :=
  if s.takes port code = false ∨ s.underWay port then .next s
  else if (s.port port).cmdOwned = false then .next (s.finish port resNotOwner none)
  else
    match f (s.port port).request with
    | .ok t => .next t
    | .error c => .next (s.finish port c none)

/-- An image base is 2 MiB aligned and the image lies below hbmtop. -/
def State.baseOk (s : State) (p : Part) (base : Nat) : Bool :=
  base % 0x200000 == 0 && base + imageSize p ≤ s.mc.hbmtop

/-- PSWITCH (R416): the switch falls due after the lead. -/
def State.askSwitch (s : State) (port : Nat) (out : Bool) (r : List Byte) : Except Nat State :=
  match s.namedIn r with
  | .error c => .error c
  | .ok (pn, p) =>
    let base := recNat 8 8 r
    if 1 < recNat 1 1 r ∨ s.baseOk p base = false then .error resRange
    else if p.switchReq.isSome then .ok s
    else
      let q : SwitchReq := { out := out, base := base, due := s.time + max 4096 (recNat 0x10 4 r), port := some port }
      .ok (s.modPart pn fun p => { p with switchReq := some q })

/-- PSWITCH_CHECKPOINT: PSWITCH in mode 0, and in a mode that does not exist (R416). -/
def execPswitchCheckpoint (port : BitVec 3) (s : State) : Result :=
  if recNat 1 1 (s.port port.toNat).request = 1 then .next s
  else s.request port.toNat 0x04 fun r => s.askSwitch port.toNat false r

/-- PSWITCH_OUT: PSWITCH in mode 1 (R416). -/
def execPswitchOut (port : BitVec 3) (s : State) : Result :=
  if recNat 1 1 (s.port port.toNat).request ≠ 1 then .next s
  else s.request port.toNat 0x04 fun r => s.askSwitch port.toNat true r

/-- PRESUME (R416): the restore of a partition that is out begins; a slice's checkpoint that is on its way back answers it,
and one that a command waits for comes back first. -/
def execPresume (port : BitVec 3) (s : State) : Result :=
  s.request port.toNat 0x05 fun r =>
    match s.named r with
    | .error c => .error c
    | .ok (pn, p) =>
      match p.out with
      | none => .error resSwState
      | some img =>
        .ok (if img.back.join.isSome then s
          else s.modPart pn fun p => { p with out := some { img with back := some (some port.toNat), byResume := true } })

/-! ## Out (R419, R420) -/

/-- The cores of a partition issue nothing. -/
def State.haltCores (s : State) (pn : Nat) : State :=
  (s.coresIn pn).foldl (fun s c => s.modCore c fun x => { x with issuing := none }) s

/-- Some soft repair runs, which the saving or loading of an image waits for (R444). -/
def State.repairRuns (s : State) : Bool := s.mc.repairing.any fun x => decide (s.time < x.2)

/-- SWITCH_OUT: at Ts the cores have stopped; once the answers that are waited for have come, the NIs keep no leaf of the
context, and the image is written (R409, R419, R420). -/
def execSwitchOut (part : BitVec 4) (s : State) : Result :=
  let pn := part.toNat
  match (s.part? pn).bind fun p => p.nextSwitch.map fun r => (p, r) with
  | none => .next s
  | some (p, r) =>
    let ts := p.switchTime r
    if p.out.isSome ∨ s.time < ts ∨ s.calmPart pn = false ∨ s.partAwaits pn ∨ s.repairRuns then .next s
    else
      let draw := s.fresh
      let save := Config.switchCycles draw % 2 ^ 32
      let t := (({ s with fresh := s.fresh + 1, tlb := s.tlb.filter fun c => c.part != pn }.stopPart pn).haltCores pn).saveImage p r.base draw
      let img : Image := { base := r.base, bytes := draw, ts := ts, save := save, checkpoint := !r.out,
                           byResume := false, back := if r.out then none else some r.port }
      let t := t.modPart pn fun p => { p with out := some img, switchReq := if p.switchReq = some r then none else p.switchReq }
      .next (match r.out, r.port with
        | true, some port => t.finish port 0 (some (bytesOf 8 ts ++ bytesOf 8 0 ++ bytesOf 4 save ++ bytesOf 4 0))
        | _, _ => t)

/-! ## In (R418, R422) -/

/-- The slice in use for a length: never below twice the estimate (R425). -/
def Part.sliceUse (p : Part) (len : Nat) : Nat := max len (2 * fld 0 32 p.saveest)

/-- A slice starts to count: SLICECLAMP where it is lengthened (R425). -/
def Part.startSlice (p : Part) (base len since : Nat) : Part :=
  { p with slice := some { base := base, len := len, since := since, use := p.sliceUse len, pending := none },
           saveest := if len < 2 * fld 0 32 p.saveest then setFlag 63 true p.saveest else p.saveest }

/-- A partition that is back on the wafer, with an estimate: the kept BANKKEY, its cores issuing from Tr on, a switch that
fell due meanwhile due then, and its slice counting again (R69, R419, R422, R425, R426). -/
def Part.cameBack (p : Part) (est tr : Nat) : Part :=
  let q := { p with out := none, bankkey := p.bankkeyKept, saveest := setFld 0 32 est p.saveest, resumeAt := tr,
                    switchReq := p.switchReq.map fun r => { r with due := max r.due tr } }
  match p.slice with
  | some x => q.startSlice x.base x.len tr
  | none => q

/-- The entry's store goes to a scratchpad: to the windows that follow a column's memory (R61). -/
def Entry.inSpad (e : Entry) : Bool := e.cells.any fun c => region c.1 && 0x2000000 ≤ offset c.1 % 2 ^ 26

/-- Entries that stayed in their pans, or waited for a scratchpad's answer, crystallise before any slot issues, view lines
that waited for them go, records move into the rings, and watchdog counts are 0 (R97, R421, R422). -/
def State.wakePart (s : State) (pn : Nat) : State :=
  let ks := (s.slots.filter fun e => s.partNoOf e.1 == pn).map (·.1)
  (ks.foldl (fun s k => ((s.crystWhere k Entry.inSpad).refillAll k).modSlot k fun t => { t with wd := 0 }) s).dropViews pn

/-- Answers the port that waits for a switch. -/
def State.answerSwitch (s : State) (port : Option Nat) (result : Nat) (resp : Option (List Byte)) : State :=
  match port with
  | some p => s.finish p result resp
  | none => s

/-- SWITCH_IN: a checked image is restored and the cores resume at Tr; an altered one leaves the partition out, or
brings a checkpointed one back with no group (R418, R422). -/
def execSwitchIn (part : BitVec 4) (s : State) : Result :=
  let pn := part.toNat
  match (s.part? pn).bind fun p => p.out.bind fun img => img.back.map fun port => (p, img, port) with
  | none => .next s
  | some (p, img, port) =>
    let emptied := { s with tlb := s.tlb.filter fun c => c.part != pn }
    if s.repairRuns then .next s
    else if s.intact p img = false then
      .next (if img.checkpoint then
          ((((emptied.modPart pn fun p => p.cameBack (fld 0 32 p.saveest) s.time).wakePart pn).killAll pn).answerSwitch
            port resBadImage none)
        else (s.modPart pn fun p => { p with out := some { img with back := none } }).answerSwitch port resBadImage none)
    else
      let restore := Config.switchCycles s.fresh % 2 ^ 32
      let tr := max s.time (img.ts + img.save) + restore + 64
      let t := { emptied with fresh := s.fresh + 1 }.loadImage p img
      let t := (t.modPart pn fun p => p.cameBack ((img.save + restore) % 2 ^ 32) tr).wakePart pn
      let resp := if img.checkpoint && !img.byResume then bytesOf 8 img.ts ++ bytesOf 8 tr ++ bytesOf 4 img.save ++ bytesOf 4 restore
                  else bytesOf 8 tr ++ bytesOf 4 restore
      .next (t.answerSwitch port 0 (some resp))

/-! ## Slices (R425) -/

/-- PSLICE (R416, R425). -/
def execPslice (port : BitVec 3) (s : State) : Result :=
  s.command port.toNat 0x06 fun r =>
    match s.namedIn r with
    | .error c => .error c
    | .ok (pn, p) =>
      let len := recNat 0x10 8 r
      if s.baseOk p (recNat 8 8 r) = false then .error resRange
      else if len = 0 then .ok (bytesOf 8 0, s.modPart pn fun p => { p with slice := none })
      else .ok (bytesOf 8 (p.sliceUse len), s.modPart pn fun p => p.startSlice (recNat 8 8 r) len s.time)

/-- SLICE_EXPIRY: the partition has run its slice, and a checkpoint falls due after the lead; a switch that a command asked
for goes its own way (R425). -/
def execSliceExpiry (part : BitVec 4) (s : State) : Result :=
  match (s.part? part.toNat).bind fun p => p.slice.map fun x => (p, x) with
  | none => .next s
  | some (p, x) =>
    if p.out.isSome ∨ x.pending.isSome ∨ s.time < x.since + x.use then .next s
    else .next (s.modPart part.toNat fun p => { p with slice := some { x with pending := some (s.time + 4096) } })

end Sys2Proof.Machine
end

