-- ==== Sys2Proof/Machine/Fleet.lean ====
section
/-! DEFINITION. Operating the module (R438 to R447), attestation over the DOE (R402, R403), bring-up, and what other
devices do here (R54, R98, R99). -/

namespace Sys2Proof.Machine

/-! ## Sensors and telemetry (R439) -/

/-- The sensors are read: power in watts and the temperatures of the districts are free values (log 3). -/
def State.sense (s : State) : State :=
  { s with fresh := s.fresh + 1, mc := { s.mc with
    power := Config.powerReading s.fresh % 2 ^ 32
    temps := (upFrom 0 24).map fun d => Config.tempReading s.fresh d % 256 } }

/-- Some district is above a temperature. -/
def Mc.above (m : Mc) (deg : Nat) : Bool := m.temps.any fun t => deg < t

/-- The power exceeds the cap. -/
def Mc.overCap (m : Mc) : Bool := m.cap != 0 && m.cap < m.power

/-- The flags of a TELEM response: capped, thermal, and at minimum clock and still over the cap. -/
def Mc.flags (m : Mc) : Nat :=
  (m.cap != 0 && decide (m.clock < 1900)).toNat + (m.above 105).toNat * 2 + (m.clock == 1200 && m.overCap).toNat * 4

/-- The first district of the highest temperature. -/
def Mc.hottest (m : Mc) : Nat := ((firstIdx (fun t => m.temps.all fun x => x ≤ t) m.temps 0).map (·.1)).getD 0

/-- Margin-log events overwritten before any MLOG returned them. -/
def Mc.missed (m : Mc) : Nat := ((m.marginLog.take (m.marginLog.length - 4096)).filter fun e => !e.seen).length

/-- A count as a field of so many bits, saturating (R439). -/
def satField (bits n : Nat) : Nat := min n (2 ^ bits - 1)

/-- The response to TELEM (R439). -/
def State.telemetry (s : State) : List Byte :=
  let m := s.mc
  bytesOf 8 s.time ++ bytesOf 4 m.power ++ bytesOf 2 m.clock ++ bytesOf 1 m.flags ++ bytesOf 1 m.hottest ++
    (m.temps.flatMap fun t => bytesOf 1 t) ++ bytesOf 8 m.softErrors ++ bytesOf 8 m.poisonLines ++
    bytesOf 8 m.vbusRepeats ++ bytesOf 8 (satField 64 (s.cores.map fun e => fld 0 32 e.2.replays).sum) ++
    bytesOf 4 (satField 32 (m.raises.map (·.2)).sum) ++
    bytesOf 4 (satField 32 (m.marginLog.filter fun e => e.kind == 3).length) ++ bytesOf 4 (satField 32 (m.qrecs.length - m.qrecsBefore)) ++
    bytesOf 4 (satField 32 m.softDone) ++ bytesOf 4 m.hardRepairs.length ++ bytesOf 4 (satField 32 m.missed)

/-- TELEM (R439). -/
def execTelem (port : BitVec 3) (s : State) : Result :=
  s.command port.toNat 0x20 fun _ => .ok (s.sense.telemetry, s.sense)

/-- The 32 bytes of a core in an MSTAT response (R440). -/
def State.marginStat (s : State) (core : Nat) : List Byte :=
  let c := s.core core
  bytesOf 1 (fld 0 5 c.margin) ++ bytesOf 1 (fld 16 5 c.margin) ++ bytesOf 1 (fld 24 4 c.margin) ++
    bytesOf 1 ((flag 31 c.margin).toNat + c.failing.toNat * 2) ++ bytesOf 4 0 ++ bytesOf 8 (fld 0 32 c.replays) ++
    bytesOf 4 (satField 32 (lookup 0 s.mc.raises core)) ++
    bytesOf 4 (if c.period = s.periodOf core then c.atZero else 0) ++ bytesOf 8 0

/-- MSTAT (R440). -/
def execMstat (port : BitVec 3) (s : State) : Result :=
  s.command port.toNat 0x21 fun r =>
    let col := recNat 0 2 r
    if 20159 < col then .error resRange
    else if s.mc.unplaced.contains col then .error resNoPart
    else .ok ((upFrom (col * 8) 8).flatMap s.marginStat, s)

/-- The 16 bytes of an event (R441). -/
def MarginEvent.bytes (e : MarginEvent) : List Byte :=
  bytesOf 8 e.time ++ bytesOf 2 e.lcol ++ bytesOf 1 e.core ++ bytesOf 1 e.kind ++ bytesOf 1 e.offset ++ bytesOf 3 0

/-- Event n of the margin log: zero where it has been overwritten or has not occurred (R441). -/
def Mc.event (m : Mc) (n : Nat) : List Byte :=
  if n + 4096 < m.marginLog.length then bytesOf 16 0
  else match m.marginLog[n]? with
    | some e => e.bytes
    | none => bytesOf 16 0

/-- MLOG: events n to n + 15, which it has now returned (R439, R441). -/
def execMlog (port : BitVec 3) (s : State) : Result :=
  s.command port.toNat 0x22 fun r =>
    let n := recNat 0 8 r
    let mark := fun (x : Nat × MarginEvent) =>
      if n ≤ x.1 ∧ x.1 < n + 16 ∧ s.mc.marginLog.length ≤ x.1 + 4096 then { x.2 with seen := true } else x.2
    .ok ((upFrom n 16).flatMap s.mc.event,
      { s with mc := { s.mc with
        marginLog := ((upFrom 0 s.mc.marginLog.length).zip s.mc.marginLog).map mark } })

/-- HMAP (R442). -/
def execHmap (port : BitVec 3) (s : State) : Result :=
  s.command port.toNat 0x23 fun r =>
    .ok ((upFrom (recNat 0 2 r) 64).flatMap fun i => bytesOf 4 (s.mc.harvestWord i), s)

/-- Quarantine record n, counted from 1; zero where none has the number (R443). -/
def Mc.qrec (m : Mc) (n : Nat) : List Byte := if n = 0 then bytesOf 32 0 else (m.qrecs[n - 1]?).getD (bytesOf 32 0)

/-- QREC (R443). -/
def execQrec (port : BitVec 3) (s : State) : Result :=
  s.command port.toNat 0x24 fun r => .ok ((upFrom (recNat 0 4 r) 8).flatMap s.mc.qrec, s)

/-! ## HBM repair (R444, R445) -/

/-- The row a repair request names: channel of the module and row; none outside its range. -/
def repairRow (r : List Byte) : Option (Nat × Nat) :=
  if 23 < recNat 0 1 r ∨ 31 < recNat 1 1 r then none else some (recNat 0 1 r * 32 + recNat 1 1 r, recNat 4 4 r)

/-- Rows of a list in the bank of a row. -/
def inBank (rows : List (Nat × Nat)) (row : Nat × Nat) : Nat :=
  (rows.filter fun x => x.1 == row.1 && Config.bankOf x.2 == Config.bankOf row.2).length

/-- The bank of a row has a soft spare, or a fuse, left (log 13). -/
def Mc.softLeft (m : Mc) (row : Nat × Nat) : Bool :=
  inBank m.softRepairs row < 1 + Config.softSpares row.1 (Config.bankOf row.2)
def Mc.fuseLeft (m : Mc) (row : Nat × Nat) : Bool :=
  inBank m.hardDone row + inBank m.hardRepairs row < 1 + Config.hardFuses row.1 (Config.bankOf row.2)

/-- The stack of a channel is under repair. -/
def State.stackBusy (s : State) (channel : Nat) : Bool :=
  s.mc.repairing.any fun x => x.1 / 32 == channel / 32 && decide (s.time < x.2)

/-- The row is repaired, and its channel held for a while that is free up to 380,000 cycles (R444, log 80). -/
def State.softRepair (s : State) (row : Nat × Nat) : State :=
  let ends := s.time + 1 + Config.repairCycles s.fresh % 380000
  { s with fresh := s.fresh + 1, mc := { s.mc with
    repairing := (row.1, ends) :: s.mc.repairing.filter fun x => decide (s.time < x.2)
    softRepairs := s.mc.softRepairs ++ [row], softDone := s.mc.softDone + 1 } }

/-- SPPR: no value changes, and accesses to the channel wait until its release; with the stack under repair the command
sleeps (R444). -/
def execSppr (port : BitVec 3) (s : State) : Result :=
  let row := repairRow (s.port port.toNat).request
  if s.takes port.toNat 0x30 ∧ (s.port port.toNat).cmdOwned ∧ (row.any fun x => s.stackBusy x.1) then .next s
  else s.command port.toNat 0x30 fun _ =>
    match row with
    | none => .error resRange
    | some row => if s.mc.softLeft row then .ok ([], s.softRepair row) else .error resNoRes

/-- HPPR: queued until the next module reset (R445). -/
def execHppr (port : BitVec 3) (s : State) : Result :=
  s.command port.toNat 0x31 fun r =>
    match repairRow r with
    | none => .error resRange
    | some row =>
      if (s.mc.hardRepairs.filter fun x => x.1 / 32 == row.1 / 32).length < 64 ∧ s.mc.fuseLeft row then
        .ok ([], { s with mc := { s.mc with hardRepairs := s.mc.hardRepairs ++ [row] } })
      else .error resNoRes

/-! ## Power (R446) -/

/-- PWRLIM (R446). -/
def execPwrlim (port : BitVec 3) (s : State) : Result :=
  s.command port.toNat 0x32 fun r =>
    let cap := recNat 0 4 r
    if cap = 0 ∨ (24000 ≤ cap ∧ cap ≤ 45000) then .ok (bytesOf 4 cap, { s with mc := { s.mc with cap := cap } })
    else .error resRange

/-- The clock after a step: down while the power exceeds the cap or a district is above 105 °C, up while the power
stays 5 % below the cap; without a cap it goes back up (R446). -/
def Mc.nextClock (m : Mc) : Nat :=
  if m.overCap || m.above 105 then max 1200 (m.clock - 25)
  else if m.cap = 0 ∨ 100 * m.power ≤ 95 * m.cap then min 1900 (m.clock + 25)
  else m.clock

/-- A participant of any partition is in a communication phase (R167). -/
def State.anyPhase (s : State) : Bool := s.cores.any fun e => e.2.phase.isSome

/-- A clock step falls due: a millisecond since the last one (R446). -/
def State.clockDue (s : State) : Bool := decide (s.mc.lastClock + s.micros 1000 ≤ s.time)

/-- POWER_CLOCK_STEP: at most once per millisecond, and not while a communication phase runs (R446). -/
def execPowerClockStep (s : State) : Result :=
  if s.clockDue = false ∨ s.anyPhase then .next s
  else
    let t := s.sense
    .next { t with mc := { t.mc with clock := t.mc.nextClock, lastClock := t.time } }

/-- THERMAL_SHUTDOWN: above 115 °C every group is killed and every core stopped (R446). -/
def execThermalShutdown (s : State) : Result :=
  if s.mc.stopped = false ∧ s.mc.above 115 then
    (let t := (s.parts.map (·.1)).foldl (fun s n => s.killAll n) s
     .next { t with mc := { t.mc with stopped := true } })
  else .next s

/-! ## Firmware and bring-up (R402, R428, R442, R445, R447) -/

/-- FWACTIVATE (R438, R447). -/
def execFwactivate (port : BitVec 3) (s : State) : Result :=
  s.command port.toNat 0x11 fun _ =>
    if s.mc.staged.isNone then .error resNoStage
    else .ok ([], { s with mc := { s.mc with activate := true } })

/-- The harvest word of a cluster at the next bring-up: blocks quarantined in this run count as bad, and a crossing recorded
dead as dead (R380, R437, R442). -/
def Mc.nextHarvest (m : Mc) (i : Nat) : Word :=
  let w := lookup 0 m.harvest i
  let w := if m.crossings.contains i then setFld 25 2 3 w else w
  let gone := (upFrom 0 25).filter fun b => m.retired.contains (25 * i + b)
  if gone = [] then w else setFlag 27 true (gone.foldl (fun w b => setFlag b true w) w)

/-- The logical columns for whose cluster the harvest map leaves no usable one in its physical column (R34, R437). -/
def Mc.unplaceable (m : Mc) : List Nat :=
  (upFrom 0 35).flatMap fun y => (upFrom 0 24).flatMap fun x =>
    if y < (m.rowsUsable x).length then [] else upFrom ((24 * y + x) * 24) 24

/-- Repairs at a reset: the queued hard ones are applied, and soft ones become hard while fuses remain; the rest are
applied again as soft ones (R445). -/
def Mc.repairAtReset (m : Mc) : Mc :=
  let m := { m with hardDone := m.hardDone ++ m.hardRepairs, hardRepairs := [] }
  m.softRepairs.foldl (fun m row =>
      if m.fuseLeft row then { m with hardDone := m.hardDone ++ [row] }
      else { m with softRepairs := m.softRepairs ++ [row], softDone := m.softDone + 1 })
    { m with softRepairs := [], softDone := 0 }

/-- The MC after a reset: what its non-volatile store keeps, the repairs, the harvest map with quarantined blocks counted
as bad, the columns for which it leaves no place, and the staged firmware where it was activated. What it measures has its value at reset (log 3). -/
def Mc.rebooted (m : Mc) : Mc :=
  let r := m.repairAtReset
  let boot := if m.activate then m.staged else none
  let keep : Mc := { Mc.reset with
    device := m.device, hbmtop := m.hbmtop, blt := m.blt, timeofs := m.timeofs
    harvest := ((upFrom 0 864).map fun i => (i, m.nextHarvest i)).filter fun e => e.2 != 0
    qrecs := m.qrecs, qrecsBefore := m.qrecs.length
    softRepairs := r.softRepairs, hardDone := r.hardDone, softDone := r.softDone }
  let keep := { keep with unplaced := keep.unplaceable }
  match boot with
  | some (v, d) => { keep with secver := v, fw := some d }
  | none => { keep with secver := m.secver, fw := m.fw }

/-- The bytes that bring-up measures into M2 and M3: the harvest map, and the tables as they read (R171, R172, R402,
R443). -/
def Mc.mapBytes (m : Mc) : List Byte := (upFrom 0 864).flatMap fun i => bytesOf 4 (m.harvestWord i)
def State.tableBytes (s : State) : List Byte :=
  ((upFrom 0 96).flatMap fun i => bytesOf 8 (s.bltEntry i).toNat) ++
    (upFrom 0 24).flatMap fun i => bytesOf 8 (s.timeofsEntry i).toNat

/-- Extends a measurement with a digest. -/
def Mc.extend0 (m : Mc) (i : Nat) (digest : BitVec 256) : Mc :=
  { m with meas := modifyAt (fun x => extendWith x (digestBytes digest)) m.meas i }

/-- The measurements of a bring-up: the loader, the firmware, the harvest map and the tables (R402). The digests of the
loader and of the firmware that first ran are free values (log 12). -/
def State.bringUp (s : State) : State :=
  let m := (s.mc.extend0 0 (Config.freeDigest 0)).extend0 1 (s.mc.fw.getD (Config.freeDigest 1))
  ({ s with mc := m }.measure 2 s.mc.mapBytes).measure 3 s.tableBytes

/-- MODULE_RESET: every partition ends; the machine is as after reset, but for what the MC keeps, and bring-up follows
(R402, R428, R442, R445, R447). The tape and the draws of free values go on. -/
def execModuleReset (s : State) : Result :=
  let t := { State.reset with mc := s.mc.rebooted, lost := s.mc.rebooted.unplaced, niKeep := s.niKeep, inputs := s.inputs, fresh := s.fresh }
  .next t.bringUp

/-! ## Attestation (R403) -/

/-- What a DOE returns to a port whose link is up. -/
def State.answerDoe (s : State) (port : Nat) (bytes : List Byte) : State :=
  if (s.port port).up then { s with host := { s.host with readData := bytes, readPoison := false } } else s

/-- DOE_DISCOVERY: the four bytes of its answer name the object types by numbers that the spec does not give: free
(R403, log 11). -/
def execDoeDiscovery (port : BitVec 3) (s : State) : Result :=
  let (bs, t) := s.freeBytes 4
  .next (t.answerDoe port.toNat bs)

/-- GETCERT (R403, log 12). -/
def execGetcert (port : BitVec 3) (s : State) : Result :=
  .next (s.answerDoe port.toNat ((upFrom 0 Config.certLength).map Config.certByte))

/-- The report that is signed (R403). -/
def State.report (s : State) (nonce : BitVec 256) : List Byte :=
  bytesOf 4 1 ++ bytesOf 4 s.host.epoch ++ bytesOf 32 nonce.toNat ++ bytesOf 4 s.mc.secver ++ bytesOf 4 0 ++
    (s.mc.meas.flatMap digestBytes)

/-- GETREPORT: the report and its signature, which is a free function of the report (R403, log 12). -/
def execGetreport (port : BitVec 3) (nonce : BitVec 256) (s : State) : Result :=
  let r := s.report nonce
  .next (s.answerDoe port.toNat (r ++ (upFrom 0 2420).map fun i => Config.signatureByte (leNat r) i))

/-! ## Other devices (R54, R98, R99) -/

/-- The partition through whose tables an access from another device goes: the one that holds an on-wafer address;
for HBM space the spec names none, and the draw chooses (log 11). -/
def State.outsidePart (s : State) (va : Word) (draw : Byte) : Option (Nat × Part) :=
  if region va then s.partAt (offset va / 2 ^ 26)
  else s.parts[draw.toNat % max 1 s.parts.length]?

/-- A core number that no core has: an access from another device reaches no own-scratchpad window (R54). -/
def outsideCore : Nat := 2 ^ 20

/-- How a home takes an access from another device. -/
inductive Outside where
  /-- it performs at a home key, and, for a page, through a walk -/
  | at (key : Nat) (walk : Option Walk)
  /-- it waits: for a partition that is out, a migrating page or a repair (R412, R421, R444) -/
  | waits
  | refused
  deriving DecidableEq, Repr

/-- A page takes an access from another device. -/
def outsidePage : Walk → Outside
  | .ok key leaf lk lv ns => .at key (some (.ok key leaf lk lv ns))
  | .mig => .waits
  | _ => .refused

/-- Where an access of n bytes from another device performs; a lost column, or one without a place, answers it with poison
(R54, R421, R433, R437). -/
def State.outsideHome (s : State) (va : Word) (n : Nat) (kind : Kind) (pn : Nat) (p : Part) : Outside :=
  match s.target p outsideCore va with
  | some (.spad core _ o) =>
    if core = outsideCore then .refused
    else if p.out.isSome then .waits
    else if s.mc.unplaced.contains (core / 8) || s.permitsOthers core kind.remoteBits o n then .at (spadKey core o) none
    else .refused
  | some (.col lcol o) =>
    if s.lost.contains lcol then .at (colKey lcol o) none else outsidePage (s.translate pn p va kind)
  | some .hbm => outsidePage (s.translate pn p va kind)
  | _ => .refused

/-- What a page was used for. -/
def State.outsideUse (s : State) (pn : Nat) (va : Word) (kind : Kind) (w : Option Walk) : State :=
  match w with
  | some w => s.usePage pn va kind w
  | none => s

/-- The operation of an atomic from another device, in the order of R263. -/
def outsideAmo (op : Nat) : AmoFn :=
  ([amoAddOf, amoSminOf, amoSmaxOf, amoUminOf, amoUmaxOf, amoAndOf, amoOrOf, amoXorOf, amoSwapOf, amoCasOf][op]?).getD
    amoSwapOf

/-- A message from another device, given as its record (R279): to the launch endpoint, which answers that device, or to
its inbox; one that finds no inbox returns to its sender's device. -/
def State.outsideMessage (s : State) (ep : Word) (rec : List Byte) : State :=
  if epTgid ep = 0 then
    if rec.length = 96 then
      s.modPart (epPart ep) fun p =>
        { p with launches := p.launches ++
            [{ bytes := rec.drop 32, sender := some (0, word (recNat 8 8 rec), recNat 4 4 rec) }] }
    else s
  else
    match s.slotOfEp ep with
    | some k => if (s.slot k).inboxOn then (s.post k rec none true).getD s else s
    | none => s

/-- Width of an access from another device of a kind: of an atomic 4 or 8 bytes, else as many as given. -/
def outsideWidth (kind : BitVec 2) (bytes : List Byte) : Nat :=
  if kind ≠ 1 then bytes.length else if (bytes.getD 0 0).toNat / 16 % 2 = 1 then 8 else 4

/-- What an access of a kind does at its home. -/
def outsideKind (kind : BitVec 2) : Kind := if kind = 0 then .load else if kind = 1 then .atomic else .store

/-- How an access from another device finds its home as the machine stands; none where no partition holds it. -/
def State.outsideWay (s : State) (kind : BitVec 2) (va : Word) (bytes : List Byte) : Option (Nat × Outside) :=
  (s.outsidePart va (Config.freeByte (s.fresh * 2 ^ 64))).map fun x =>
    (x.1, s.outsideHome va (outsideWidth kind bytes) (outsideKind kind) x.1 x.2)

/-- The access from another device that may go on: the first at its NI, once nothing there makes it wait (R421, R444). -/
def State.nextOutside (s : State) : Option HostAccess :=
  s.host.waiting.find? fun x =>
    match x.asker with
    | .device kind => s.isFirst x && (s.outsideWay kind (word x.addr) (x.bytes.getD [])).map (·.2) != some .waits
    | _ => false

/-- A core's scratchpad has been reached from outside (R70). -/
def State.probe (s : State) (key : Nat) : State :=
  match homeOf key with
  | .spad core _ => s.modCore core fun c => { c with probed := true }
  | _ => s

/-- An access from another device performs at its home key. -/
def State.outsideDo (s : State) (kind : BitVec 2) (va : Word) (bytes : List Byte) (pn key : Nat) (walk : Option Walk) : State :=
  let w := outsideWidth kind bytes
  let u := ({ s with fresh := s.fresh + 1 }.outsideUse pn va (outsideKind kind) walk).probe key
  if kind = 2 then u.homeWrite none key bytes
  else
    let old := u.homeBytes key w
    let u := { u with host := { u.host with readData := old, readPoison := u.anyPoison key w } }
    if kind = 0 then u
    else
      let op := (bytes.getD 0 0).toNat
      let new := outsideAmo (op % 16) (8 * w) (leNat old) (recNat 1 w bytes) (recNat (1 + w) w bytes)
      (u.homeWrite none key (bytesOf w new)).rereadFlags key w

/-- DEVICE_ACCESS_ARRIVAL: an access of another device is performed at its home here, checked against that device's maps
alone (R54, R396). It waits for a partition that is out, a migrating page or a repair, and behind what waits at its NI, in
order of arrival (R412, R421, R444). Kind 0 is a load of as many bytes as given; 1 an atomic, a byte with its operation and
16 more for the 8-byte forms, then operand and expected value; 2 the bytes of a copy; 3 a message as its record. Nothing here
is journalled: the writer stands in no barrier group of this device (R435). What the access answers leaves with it. -/
def execDeviceAccessArrival (kind : BitVec 2) (addr : Word) (bytes : List Byte) (s : State) : Result :=
  let w := outsideWidth kind bytes
  let x : HostAccess := { port := 0, addr := addr.toNat, key := offset addr, len := w, bytes := some bytes, asker := .device kind }
  let turn := s.nextOutside == some x
  let u := if turn then s.unwait x else s
  if kind = 3 then .next (s.outsideMessage addr bytes)
  else if w = 0 ∨ (kind = 1 ∧ addr.toNat % w ≠ 0) ∨ 4096 < addr.toNat % 4096 + w then .next s
  else
    match s.outsideWay kind addr bytes with
    | none | some (_, .refused) => .next u
    | some (_, .waits) => .next (s.wait x)
    | some (pn, .at key walk) =>
      if !turn && s.host.waiting.any fun y => y.ni == x.ni then .next (s.wait x)
      else .next (u.outsideDo kind addr bytes pn key walk)

end Sys2Proof.Machine
end

