-- ==== Sys2Proof/Machine/Pending.lean ====
section
/-! DEFINITION. The events the device itself owes, in the order in which the model takes them when no core is within a
run of bundles (log 4). An event that is owed but cannot happen yet leaves the state as it is, so the first one that
changes it is taken. -/

namespace Sys2Proof.Machine

/-- An event the device owes; each is the event of the same name of Due. -/
inductive Due where
  | strefused (slot : Nat)
  | entryAcceptance (slot seq : Nat)
  | crystallisation (slot seq : Nat)
  | flitDeparture (core : Nat)
  | trecvWindowClose (core index : Nat)
  | phaseLimit (slot : Nat)
  | flitArrival (core index : Nat)
  | dropNotice (core : Nat)
  | chunkRecord (slot id chunk : Nat)
  | copyCompletion (slot id : Nat)
  | messageDelivery (core index lat : Nat)
  | undeliverableNotice (core index : Nat)
  | barrier (part bgrp : BitVec 4)
  | coreSettled (part bgrp : BitVec 4) (slot : Nat)
  | settleLimit (part bgrp : BitVec 4)
  | barrierRelease (part bgrp : BitVec 4) (slack : Nat)
  | launchMessage (part : BitVec 4)
  | taskStart (slot : Nat)
  | jobCompletion (lcol : Nat)
  | jobStart (lcol : Nat)
  | maskShareCompletion (slot id : Nat)
  | mhistCompletion (slot id : Nat)
  | retirementCleaned (part : BitVec 4) (layer : BitVec 12) (rslot : BitVec 2)
  | slotWake (slot : Nat)
  | fuseTimeout (slot : Nat)
  | acqfReread (slot : Nat)
  | watchdogForcedSwitch (slot : Nat)
  | cxlMemRead (port : BitVec 3) (addr len : Nat)
  | cxlMemWrite (port : BitVec 3) (addr : Nat) (bytes : List Byte)
  | claim (port : BitVec 3)
  | release (port : BitVec 3)
  | handover (port target : BitVec 3)
  | accept (port : BitVec 3)
  | pcreate (port : BitVec 3)
  | pdestroy (port : BitVec 3)
  | pinfo (port : BitVec 3)
  | pswitchCheckpoint (port : BitVec 3)
  | pswitchOut (port : BitVec 3)
  | presume (port : BitVec 3)
  | pslice (port : BitVec 3)
  | pdevmap (port : BitVec 3)
  | slotreg (port : BitVec 3)
  | gkillCommand (port : BitVec 3)
  | fwstage (port : BitVec 3) (verdict : Nat) (version : BitVec 64) (digest : BitVec 256)
  | fwactivate (port : BitVec 3)
  | telem (port : BitVec 3)
  | mstat (port : BitVec 3)
  | mlog (port : BitVec 3)
  | hmap (port : BitVec 3)
  | qrec (port : BitVec 3)
  | sppr (port : BitVec 3)
  | hppr (port : BitVec 3)
  | pwrlim (port : BitVec 3)
  | badcmd (port : BitVec 3)
  | switchOut (part : BitVec 4)
  | switchIn (part : BitVec 4)
  | sliceExpiry (part : BitVec 4)
  | replayPeriod (core : Nat)
  | handoverLapse
  | ownerLinkLoss
  | thermalShutdown
  | powerClockStep
  | walkRetry (slot : Nat)
  | deviceAccess (kind : BitVec 2) (addr : Word) (bytes : List Byte)
  deriving DecidableEq, Repr

/-- What the event does: the meaning of the event of the same name. -/
def Due.run (d : Due) (s : State) : Result :=
  match d with
  | .strefused slot => execStrefused slot s
  | .entryAcceptance slot seq => execEntryAcceptance slot seq s
  | .crystallisation slot seq => execCrystallisation slot seq s
  | .flitDeparture core => execFlitDeparture core s
  | .trecvWindowClose core index => execTrecvWindowClose core index s
  | .phaseLimit slot => execPhaseLimit slot s
  | .flitArrival core index => execFlitArrival core index s
  | .dropNotice core => execDropNotice core s
  | .chunkRecord slot id chunk => execChunkRecord slot id chunk s
  | .copyCompletion slot id => execCopyCompletion slot id s
  | .messageDelivery core index lat => execMessageDelivery core index lat s
  | .undeliverableNotice core index => execUndeliverableNotice core index s
  | .barrier part bgrp => execBarrier part bgrp s
  | .coreSettled part bgrp slot => execCoreSettled part (bgrp, slot) s
  | .settleLimit part bgrp => execSettleLimit part bgrp s
  | .barrierRelease part bgrp slack => execBarrierRelease part bgrp slack s
  | .launchMessage part => execLaunchMessage part s
  | .taskStart slot => execTaskStart slot s
  | .jobCompletion lcol => execJobCompletion lcol s
  | .jobStart lcol => execJobStart lcol s
  | .maskShareCompletion slot id => execMaskShareCompletion slot id s
  | .mhistCompletion slot id => execMhistCompletion slot id s
  | .retirementCleaned part layer rslot => execRetirementCleaned part layer rslot s
  | .slotWake slot => execSlotWake slot s
  | .fuseTimeout slot => execFuseTimeout slot s
  | .acqfReread slot => execAcqfReread slot s
  | .watchdogForcedSwitch slot => execWatchdogForcedSwitch slot s
  | .cxlMemRead port addr len => execCxlMemRead port addr len s
  | .cxlMemWrite port addr bytes => execCxlMemWrite port addr bytes s
  | .claim port => execClaim port s
  | .release port => execRelease port s
  | .handover port target => execHandover port target s
  | .accept port => execAccept port s
  | .pcreate port => execPcreate port s
  | .pdestroy port => execPdestroy port s
  | .pinfo port => execPinfo port s
  | .pswitchCheckpoint port => execPswitchCheckpoint port s
  | .pswitchOut port => execPswitchOut port s
  | .presume port => execPresume port s
  | .pslice port => execPslice port s
  | .pdevmap port => execPdevmap port s
  | .slotreg port => execSlotreg port s
  | .gkillCommand port => execGkillCommand port s
  | .fwstage port verdict version digest => execFwstage port verdict version digest s
  | .fwactivate port => execFwactivate port s
  | .telem port => execTelem port s
  | .mstat port => execMstat port s
  | .mlog port => execMlog port s
  | .hmap port => execHmap port s
  | .qrec port => execQrec port s
  | .sppr port => execSppr port s
  | .hppr port => execHppr port s
  | .pwrlim port => execPwrlim port s
  | .badcmd port => execBadcmd port s
  | .switchOut part => execSwitchOut part s
  | .switchIn part => execSwitchIn part s
  | .sliceExpiry part => execSliceExpiry part s
  | .replayPeriod core => execReplayPeriod core s
  | .handoverLapse => execHandoverLapse s
  | .ownerLinkLoss => execOwnerLinkLoss s
  | .thermalShutdown => execThermalShutdown s
  | .powerClockStep => execPowerClockStep s
  | .walkRetry slot => execWalkRetry slot s
  | .deviceAccess kind addr bytes => execDeviceAccessArrival kind addr bytes s

/-- Sums up a list of candidates over the keys of a table. -/
def perKey {α : Type} (m : KMap α) (f : Nat → α → List Due) : List Due := m.flatMap fun e => f e.1 e.2

/-- The answers of homes a slot's log waits for, after the trap of a refused entry (R76, R77, R90). -/
def owedLog (k : Nat) (t : Slot) : List Due :=
  (if t.dueRefusal.isSome then [.strefused k] else []) ++
    t.log.entries.filterMap fun e =>
      match e.state with
      | .sent => some (.entryAcceptance k e.seq)
      | .accepted => some (.crystallisation k e.seq)
      | _ => none

/-- Flits, windows and the end of a phase on a core (R167 to R174). -/
def State.owedPhase (s : State) (core : Nat) (c : Core) : List Due :=
  (match c.phase with
   | some p =>
     (if p.sends = [] then [] else [.flitDeparture core]) ++
       (upFrom 0 p.windows.length).map (fun i => Due.trecvWindowClose core i) ++ [.phaseLimit p.slot]
   | none => []) ++
    (upFrom 0 (s.flits.filter fun f => f.dst == core && !f.notice).length).map (fun i => Due.flitArrival core i)

/-- The next chunk of a copy, and its completion (R287 to R290). -/
def owedCopy (c : Copy) : List Due :=
  (match c.next with
   | some j => [.chunkRecord c.slot c.id j]
   | none => []) ++ [.copyCompletion c.slot c.id]

/-- A message's arrival; its latency is the wafer time since its release (R276). -/
def State.owedMsgs (s : State) : List Due :=
  (s.msgs.map fun m => coreOf m.src).eraseDups.flatMap fun core =>
    ((upFrom 0 (s.sendQueue core).length).zip (s.sendQueue core)).flatMap fun x =>
      [.messageDelivery core x.1 (s.time - x.2.born), .undeliverableNotice core x.1]

/-- The barrier groups of a partition that may have something to do; one without groups may owe a quarantine (R433). -/
def Part.barGroups (p : Part) : List Nat :=
  if p.groups = [] then [0] else ((p.groups.filter fun g => !g.svc).map (·.bgrp) ++ p.bars.map (·.1)).eraseDups

/-- The barrier steps of a partition (R155, R156). -/
def owedBars (pn : Nat) (p : Part) : List Due :=
  p.barGroups.flatMap fun g =>
    let p4 := BitVec.ofNat 4 pn
    let g4 := BitVec.ofNat 4 g
    .barrier p4 g4 ::
      (match (p.bar g).stage with
       | .settling _ left => left.map fun k => Due.coreSettled p4 g4 k
       | _ => []) ++ [.settleLimit p4 g4, .barrierRelease p4 g4 0]

/-- The slots that may start the next task of a group (R38). -/
def owedStarts (p : Part) : List Due :=
  (p.groups.filter fun g => g.waits == [] && !p.allStarted g).flatMap fun g =>
    (p.footprint g).flatMap fun cl =>
      let n := lookup 0 g.started cl
      if n < g.perCluster then
        (upFrom (((cl * 24 + n / g.coresPer) * 8 + n % g.coresPer) * 4) 4).map fun k => Due.taskStart k
      else []

/-- The retired versions that an engine still has to clean (R141, R148). -/
def owedLayers (pn : Nat) (p : Part) : List Due :=
  p.layers.flatMap fun l => (upFrom 0 4).filterMap fun q =>
    if (l.2.slot q).state = .retired ∨ (l.2.slot q).clearing ≠ [] ∨ (l.2.slot q).giveUp then
      some (.retirementCleaned (BitVec.ofNat 4 pn) (BitVec.ofNat 12 l.1) (BitVec.ofNat 2 q))
    else none

/-- The MC's command of the port that comes first (R393, R438). Whether a staged image's signature verifies is a free
value, and so is its security version (log 12). -/
def State.owedCommand (s : State) : List Due :=
  match s.host.order with
  | [] => []
  | n :: _ =>
    let p := BitVec.ofNat 3 n
    let code := (s.port n).mbxcmd
    if code = 0x01 then [.pcreate p] else if code = 0x02 then [.pdestroy p] else if code = 0x03 then [.pinfo p]
    else if code = 0x04 then [.pswitchCheckpoint p, .pswitchOut p] else if code = 0x05 then [.presume p]
    else if code = 0x06 then [.pslice p] else if code = 0x07 then [.pdevmap p] else if code = 0x08 then [.slotreg p]
    else if code = 0x09 then [.gkillCommand p]
    else if code = 0x10 then
      [.fwstage p (Config.freeByte (s.fresh * 2 ^ 64)).toNat ((Config.freeDigest (2 + 2 * s.fresh)).extractLsb' 0 64)
        (s.imageDigest (s.port n).request)]
    else if code = 0x11 then [.fwactivate p] else if code = 0x20 then [.telem p] else if code = 0x21 then [.mstat p]
    else if code = 0x22 then [.mlog p] else if code = 0x23 then [.hmap p] else if code = 0x24 then [.qrec p]
    else if code = 0x30 then [.sppr p] else if code = 0x31 then [.hppr p] else if code = 0x32 then [.pwrlim p]
    else [.badcmd p]

/-- The access of another device that waits no more (R421, R444). -/
def State.owedOutside (s : State) : List Due :=
  match s.nextOutside with
  | some x =>
    (match x.asker with
     | .device kind => [.deviceAccess kind (word x.addr) (x.bytes.getD [])]
     | _ => [])
  | none => []

/-- The CXL.mem access that the end of a repair releases (R444). -/
def State.owedAccess (s : State) : List Due :=
  match s.nextWaiting with
  | some x =>
    (match x.bytes with
     | none => [.cxlMemRead (BitVec.ofNat 3 x.port) x.addr x.len]
     | some bs => [.cxlMemWrite (BitVec.ofNat 3 x.port) x.addr bs])
  | none => []

/-- The OWNCTL write that the MC takes once its round has ended (R390). -/
def State.owedOwn (s : State) : List Due :=
  match s.host.nextOwn.filter fun w => decide (w.ends ≤ s.time) with
  | some w =>
    let p := BitVec.ofNat 3 w.port
    if w.op = 1 then [.claim p] else if w.op = 2 then [.release p]
    else if w.op = 3 then [.handover p (BitVec.ofNat 3 w.target)] else [.accept p]
  | none => []

/-- Switches of a partition (R416 to R425). -/
def owedSwitches (pn : Nat) : List Due :=
  [.switchOut (BitVec.ofNat 4 pn), .switchIn (BitVec.ofNat 4 pn), .sliceExpiry (BitVec.ofNat 4 pn)]

/-- The word of slot k's sleeping ACQF lets it go on (R87). -/
def State.flagDue (s : State) (k : Nat) : Bool :=
  match (s.slot k).cond with
  | .flagWord key _ => s.wouldSee k key 8
  | _ => false

/-- The wakes of a slot (R42, R47, R87). -/
def State.owedWakes (s : State) (k : Nat) (t : Slot) : List Due :=
  if t.status = .asleep then
    (if s.condHolds k then [.slotWake k] else []) ++
      (match t.cond with
       | .gang _ _ => [.fuseTimeout k]
       | _ => []) ++ (if s.flagDue k then [.acqfReread k] else [])
  else if t.period ≤ t.wd then [.watchdogForcedSwitch k] else []

/-- A slot waits behind a migrating page (R412). -/
def owedRetry (k : Nat) (t : Slot) : List Due :=
  match t.status, t.cond with
  | .asleep, .migration _ => [.walkRetry k]
  | _, _ => []

/-- A period of a core has ended (R430). -/
def State.owedPeriod (s : State) (c : Nat) (x : Core) : List Due :=
  if x.period = s.periodOf c then [] else [.replayPeriod c]

/-- Everything owed, first things first. -/
def State.owed (s : State) : List Due :=
  perKey s.slots owedLog ++ perKey s.cores s.owedPhase ++
    (s.flits.filter fun f => f.notice).map (fun f => Due.dropNotice (coreOf f.src)) ++
    s.copies.flatMap owedCopy ++
    (s.jobs.map fun j => lcolOf j.slot).eraseDups.flatMap (fun c => [Due.jobCompletion c, .jobStart c]) ++
    s.masks.flatMap (fun r => [Due.maskShareCompletion r.slot r.id, .mhistCompletion r.slot r.id]) ++
    perKey s.parts owedLayers ++ s.owedMsgs ++ perKey s.parts owedBars ++
    s.parts.map (fun e => Due.launchMessage (BitVec.ofNat 4 e.1)) ++ perKey s.parts (fun _ p => owedStarts p) ++
    perKey s.slots s.owedWakes ++ s.owedAccess ++ s.owedOutside ++ s.owedOwn ++ s.owedCommand ++ perKey s.parts (fun n _ => owedSwitches n) ++
    perKey s.cores s.owedPeriod ++ [.handoverLapse, .ownerLinkLoss, .thermalShutdown, .powerClockStep] ++
    perKey s.slots owedRetry

/-- The next event of a home, engine, queue, barrier or timer: the first owed one that changes the state. -/
def State.nextEvent (s : State) : Option Due :=
  s.owed.find? fun i =>
    match i.run s with
    | .next t => t != s
    | _ => false

end Sys2Proof.Machine
end

