-- ==== Sys2Proof/Machine/Place.lean ====
section
/-! DEFINITION. Placing a bundle where the next step fetches it, which stands for a program's being loaded and launched
by the host (log 7). -/

namespace Sys2Proof.Machine

/-- The partition a placed program runs in: number 0, the whole grid, its page tables at 0x100000 (log 7). -/
def Part.placed : Part :=
  { px := 0, py := 0, w := 24, h := 35, request := [], root := 0x100000, trapvec := 0, bankkey := 0, bankkeyKept := 0,
    ltbase := 0, saveest := 0, devmap := List.replicate 16 0, tokens := [], groups := [], nextTgid := 2, launches := [],
    bars := [], layers := [], out := none, calm := 0, resumeAt := 0, switchReq := none, slice := none }

/-- Writes a number of eight bytes at a home key. -/
def State.poke (s : State) (k v : Nat) : State := { s with mem := s.mem.writeAll k (bytesOf 8 v) }

/-- The page tables of a placed program: one 64 KiB page, readable, writable and executable, at virtual and physical
0x200000, its accessed bits set (R405, R406). -/
def State.placePages (s : State) : State :=
  ((s.poke 0x100000 0x2010040B).poke 0x100800 0x2020040B).poke 0x101100 0x4000034B

/-- The task a placed program runs as: group 1 of partition 0, slot 0 of core 0 of column 0 (R27, R28, R39). -/
def Slot.placed (t : Slot) : Slot :=
  { t with status := .ready, cond := .none, pc := 0x200000, flight := [], landedAt := 0, redo := none, bar := .away,
           task := some { entry := 0x200000, args := 0 },
           sys := { t.sys with coord := 0x1000000000000, tgext := 0 } }

/-- The group of a placed program (R30). -/
def Group.placed : Group :=
  { tgid := 1, entry := 0x200000, args := 0, ext := 0, sig := 0, bgrp := 0, waits := [], started := [(0, 1)],
    ended := 0 }

/-- Where the next step of the core that issues fetches, as a home key. -/
def State.fetchKey (s : State) : Option Nat :=
  match s.turnOf with
  | some c =>
    let t := s.takeUpSlot c
    if t.me.redo.isSome then none
    else
      match t.fetch with
      | .bundle _ _ =>
        match t.translate t.myPart t.curPart t.me.pc .fetch with
        | .ok key _ _ _ _ => if t.isLost key then none else some key
        | _ => none
      | _ => none
  | none => none

/-- Stores a bundle where the next step fetches: at the issuing slot's pc when a slot can issue there, else as the first
bundle of a task that is set up for it (log 7). -/
def State.placeBundle (s : State) (w : Nat) : State :=
  let s := { s with inputs := [], gangs := [] }
  match s.fetchKey with
  | some key => { s with mem := s.mem.writeAll key (bytesOf 8 w) }
  | none =>
    let s := { s with parts := [(0, { Part.placed with groups := [Group.placed] })], cur := 0, lost := [], tlb := [] }
    let s := (s.modSlot 0 Slot.placed).modCore 0 fun c => { c with issuing := some 0, last := 0, phase := none }
    let s := { s with mc := { s.mc with stopped := false } }
    (s.placePages).poke 0x200000 w

end Sys2Proof.Machine
end

