-- ==== Sys2Proof/Machine/Integer.lean ====
section
/-! DEFINITION. The integer A majors, immediates and predicate moves (R195 to R207). -/

namespace Sys2Proof.Machine

/-! ## Values -/

/-- Upper half of the signed product (R196). -/
def mulHighS (a b : Word) : Word := ((a.signExtend 128 * b.signExtend 128) >>> 64).setWidth 64

/-- Upper half of the unsigned product (R196). -/
def mulHighU (a b : Word) : Word := ((a.setWidth 128 * b.setWidth 128) >>> 64).setWidth 64

/-- Signed division (R197). -/
def divS (a b : Word) : Word :=
  if b = 0 then 0xFFFFFFFFFFFFFFFF
  else if a = 0x8000000000000000 ∧ b = 0xFFFFFFFFFFFFFFFF then a
  else BitVec.ofInt 64 (a.toInt.tdiv b.toInt)

/-- Signed remainder (R197). -/
def remS (a b : Word) : Word :=
  if b = 0 then a
  else if a = 0x8000000000000000 ∧ b = 0xFFFFFFFFFFFFFFFF then 0
  else BitVec.ofInt 64 (a.toInt - a.toInt.tdiv b.toInt * b.toInt)

/-- Unsigned division (R197). -/
def divU (a b : Word) : Word := if b = 0 then 0xFFFFFFFFFFFFFFFF else BitVec.ofNat 64 (a.toNat / b.toNat)

/-- Unsigned remainder (R197). -/
def remU (a b : Word) : Word := if b = 0 then a else BitVec.ofNat 64 (a.toNat % b.toNat)

/-- The shift count sb[5:0] (R198). -/
def count6 (b : Word) : Nat := b.toNat % 64

/-- The lesser and greater of two quads, signed and unsigned (R198). -/
def minS (a b : Word) : Word := if a.toInt ≤ b.toInt then a else b
def maxS (a b : Word) : Word := if a.toInt ≤ b.toInt then b else a
def minU (a b : Word) : Word := if a.toNat ≤ b.toNat then a else b
def maxU (a b : Word) : Word := if a.toNat ≤ b.toNat then b else a

/-- Zero bits above the highest set bit (R199). -/
def clz64 (a : Word) : Word := word (64 - bitLen a.toNat)

/-- Zero bits below the lowest set bit, of n bits. -/
def trailing : Nat → Nat → Nat
  | 0, _ => 0
  | n + 1, x => if x % 2 = 1 then 0 else trailing n (x / 2) + 1

/-- Zero bits below the lowest set bit (R199). -/
def ctz64 (a : Word) : Word := word (trailing 64 a.toNat)

/-- Set bits among n bits. -/
def ones : Nat → Nat → Nat
  | 0, _ => 0
  | n + 1, x => x % 2 + ones n (x / 2)

/-- Set bits (R199). -/
def popc64 (a : Word) : Word := word (ones 64 a.toNat)

/-- The low n bits of x in reverse order. -/
def revBits : Nat → Nat → Nat
  | 0, _ => 0
  | n + 1, x => x % 2 * 2 ^ n + revBits n (x / 2)

/-- Bits in reverse order (R199). -/
def brev64 (a : Word) : Word := word (revBits 64 a.toNat)

/-- Bytes in reverse order (R199). -/
def bswap64 (a : Word) : Word := word (leNat (bytesOf 8 a.toNat).reverse)

/-- The field length sb[14:8], at most 64 (R202). -/
def fieldLen (b : Word) : Nat := min 64 (fld 8 7 b)

/-- A field extracted (R202). -/
def bfxOf (a b : Word) : Word :=
  let f := a.toNat / 2 ^ fld 0 6 b % 2 ^ fieldLen b
  if fieldLen b = 0 then 0 else if flag 16 b then sextWord (fieldLen b) f else word f

/-- A field inserted (R202). -/
def bfiOf (d a b : Word) : Word :=
  mergeMask (BitVec.ofNat 64 ((2 ^ fieldLen b - 1) * 2 ^ fld 0 6 b)) (BitVec.ofNat 64 (a.toNat * 2 ^ fld 0 6 b)) d

/-! ## Immediates and predicates -/

/-- CNOP does nothing (R209). -/
def execCnop (s : State) : Result := .next s

/-- LI (R204). -/
def execLi (d : SReg) (imm : BitVec 19) (s : State) : Result := .next (s.setS 1 d (simm imm))

/-- LIX, h = 0 (R205). -/
def execLix (d : SReg) (imm : BitVec 50) (s : State) : Result := .next (s.setS 1 d (simm imm))

/-- LIX, h = 1 (R205). -/
def execLixHi (d : SReg) (ext : BitVec 32) (s : State) : Result :=
  .next (s.setS 1 d (ext ++ (s.rs d).setWidth 32))

/-- ADDI (R206). -/
def execAddi (d a : SReg) (imm : BitVec 14) (s : State) : Result := .next (s.setS 1 d (s.rs a + simm imm))

/-- MOVP to a scalar (R207). -/
def execMovpToScalar (d : SReg) (a : PReg) (s : State) : Result := .next (s.setS 1 d (ofFlag (s.rp a)))

/-- MOVP to a predicate (R207). -/
def execMovpToPred (d : PReg) (a : SReg) (s : State) : Result := .next (s.setP 1 d (s.rs a != 0))

/-- MOVP.AND (R207). -/
def execMovpAnd (d a b : PReg) (s : State) : Result := s.pred2 (fun x y => x && y) d a b

/-- MOVP.OR (R207). -/
def execMovpOr (d a b : PReg) (s : State) : Result := s.pred2 (fun x y => x || y) d a b

/-- MOVP.XOR (R207). -/
def execMovpXor (d a b : PReg) (s : State) : Result := s.pred2 (fun x y => x != y) d a b

/-- MOVP.NOT (R207). -/
def execMovpNot (d a : PReg) (s : State) : Result := .next (s.setP 1 d (!s.rp a))

/-- C hints do nothing (R185). -/
def execCHint (_maj : BitVec 6) (_bits : BitVec 24) (s : State) : Result := .next s

/-- A hints do nothing (R185). -/
def execAHint (_bits : BitVec 24) (s : State) : Result := .next s

/-! ## Arithmetic -/

/-- ADD (R196). -/
def execAdd (d a b : SReg) (s : State) : Result := s.op2 (fun x y => x + y) d a b
/-- SUB (R196). -/
def execSub (d a b : SReg) (s : State) : Result := s.op2 (fun x y => x - y) d a b
/-- MUL (R196). -/
def execMul (d a b : SReg) (s : State) : Result := s.op2 (fun x y => x * y) d a b
/-- MULHS (R196). -/
def execMulhs (d a b : SReg) (s : State) : Result := s.op2 mulHighS d a b
/-- MULHU (R196). -/
def execMulhu (d a b : SReg) (s : State) : Result := s.op2 mulHighU d a b
/-- DIV (R197). -/
def execDiv (d a b : SReg) (s : State) : Result := s.op2 divS d a b
/-- DIVU (R197). -/
def execDivu (d a b : SReg) (s : State) : Result := s.op2 divU d a b
/-- REM (R197). -/
def execRem (d a b : SReg) (s : State) : Result := s.op2 remS d a b
/-- REMU (R197). -/
def execRemu (d a b : SReg) (s : State) : Result := s.op2 remU d a b

/-! ## Logic, shifts, minimum and maximum -/

/-- AND (R198). -/
def execAnd (d a b : SReg) (s : State) : Result := s.op2 (fun x y => x &&& y) d a b
/-- OR (R198). -/
def execOr (d a b : SReg) (s : State) : Result := s.op2 (fun x y => x ||| y) d a b
/-- XOR (R198). -/
def execXor (d a b : SReg) (s : State) : Result := s.op2 (fun x y => x ^^^ y) d a b
/-- ANDN (R198). -/
def execAndn (d a b : SReg) (s : State) : Result := s.op2 (fun x y => x &&& ~~~ y) d a b
/-- ORN (R198). -/
def execOrn (d a b : SReg) (s : State) : Result := s.op2 (fun x y => x ||| ~~~ y) d a b
/-- XNOR (R198). -/
def execXnor (d a b : SReg) (s : State) : Result := s.op2 (fun x y => ~~~ (x ^^^ y)) d a b
/-- SHL (R198). -/
def execShl (d a b : SReg) (s : State) : Result := s.op2 (fun x y => x <<< count6 y) d a b
/-- SHR (R198). -/
def execShr (d a b : SReg) (s : State) : Result := s.op2 (fun x y => x >>> count6 y) d a b
/-- SRA (R198). -/
def execSra (d a b : SReg) (s : State) : Result := s.op2 (fun x y => x.sshiftRight (count6 y)) d a b
/-- ROL (R198). -/
def execRol (d a b : SReg) (s : State) : Result := s.op2 (fun x y => x.rotateLeft (count6 y)) d a b
/-- SMIN (R198). -/
def execSmin (d a b : SReg) (s : State) : Result := s.op2 minS d a b
/-- SMAX (R198). -/
def execSmax (d a b : SReg) (s : State) : Result := s.op2 maxS d a b
/-- UMIN (R198). -/
def execUmin (d a b : SReg) (s : State) : Result := s.op2 minU d a b
/-- UMAX (R198). -/
def execUmax (d a b : SReg) (s : State) : Result := s.op2 maxU d a b

/-! ## Bit counts and reversals -/

/-- CLZ (R199). -/
def execClz (d a : SReg) (s : State) : Result := s.op1 clz64 d a
/-- CTZ (R199). -/
def execCtz (d a : SReg) (s : State) : Result := s.op1 ctz64 d a
/-- POPC (R199). -/
def execPopc (d a : SReg) (s : State) : Result := s.op1 popc64 d a
/-- BREV (R199). -/
def execBrev (d a : SReg) (s : State) : Result := s.op1 brev64 d a
/-- BSWAP (R199). -/
def execBswap (d a : SReg) (s : State) : Result := s.op1 bswap64 d a

/-! ## Compare, select, bitfields, addresses -/

/-- CMP.EQ (R200). -/
def execCmpEq (d : PReg) (a b : SReg) (s : State) : Result := s.cmp2 (fun x y => x == y) d a b
/-- CMP.NE (R200). -/
def execCmpNe (d : PReg) (a b : SReg) (s : State) : Result := s.cmp2 (fun x y => x != y) d a b
/-- CMP.LT (R200). -/
def execCmpLt (d : PReg) (a b : SReg) (s : State) : Result := s.cmp2 (fun x y => x.toInt < y.toInt) d a b
/-- CMP.LE (R200). -/
def execCmpLe (d : PReg) (a b : SReg) (s : State) : Result := s.cmp2 (fun x y => x.toInt ≤ y.toInt) d a b
/-- CMP.LTU (R200). -/
def execCmpLtu (d : PReg) (a b : SReg) (s : State) : Result := s.cmp2 (fun x y => x.toNat < y.toNat) d a b
/-- CMP.LEU (R200). -/
def execCmpLeu (d : PReg) (a b : SReg) (s : State) : Result := s.cmp2 (fun x y => x.toNat ≤ y.toNat) d a b

/-- SEL: the condition is the destination register's own value (R201). -/
def execSel (d a b : SReg) (s : State) : Result := .next (s.setS 1 d (if s.rs d ≠ 0 then s.rs a else s.rs b))

/-- BFX (R202). -/
def execBfx (d a b : SReg) (s : State) : Result := s.op2 bfxOf d a b

/-- BFI reads sd as its third operand (R202). -/
def execBfi (d a b : SReg) (s : State) : Result := .next (s.setS 1 d (bfiOf (s.rs d) (s.rs a) (s.rs b)))

/-- ADDA (R203). -/
def execAdda (d a b : SReg) (s : State) : Result := s.op2 effAddr d a b

end Sys2Proof.Machine
end

