-- ==== Sys2Proof/Machine/VectorBlocks.lean ====
section
/-! DEFINITION. Random numbers, dropout, the MX quantiser and the GAB and ABF blocks: majors 0x2E to 0x38 (R241 to
R251). -/

namespace Sys2Proof.Machine

/-! ## Random numbers and dropout (R241, R242) -/

/-- Philox word of element i of a draw (R241): seed, then layer, stream and base. -/
def rngWord (seed sb : Word) (i : Nat) : Nat :=
  let x := (fld 0 48 sb + i) % 2 ^ 48
  (philox (x % 2 ^ 32, x / 2 ^ 32, fld 48 4 sb, 0) (fld 0 32 seed, xorNat (fld 32 32 seed) (fld 52 12 sb))).1

/-- VRNG.I32 (R241). -/
def execVrngI32 (d : VReg) (a b : SReg) (s : State) : Result :=
  .next (s.setV 8 d (vecOf 5 ((upFrom 0 16).map fun i => rngWord (s.rs a) (s.rs b) i)))

/-- VRNG.F32: exact, without flags (R241). -/
def execVrngF32 (d : VReg) (a b : SReg) (s : State) : Result :=
  .next (s.setV 8 d (vecOf 1 ((upFrom 0 16).map fun i =>
    (fmtF32.round .rne false (rngWord (s.rs a) (s.rs b) i / 256) (-24)).1)))

/-- x × 2^32 / K rounded once into F32, K not 0 (R242). -/
def rescale (md : Mode) (k x : Nat) : Nat × Fl :=
  match fmtF32.decode x with
  | .fin n m e =>
    let q := m * 2 ^ 96 / k
    fmtF32.round md n (2 * q + if m * 2 ^ 96 % k = 0 then 0 else 1) (e - 65)
  | v => fmtF32.ofVal md v

/-- VDROP (R242). -/
def execVdrop (d a : VReg) (b : SReg) (rm : Rm) (s : State) : Result :=
  let k := min (fld 0 33 (s.rs b)) (2 ^ 32)
  s.lane2 8 1 (fun x r => if r < k then rescale (rmOf rm) k x else (0, noFl)) d d a

/-! ## MX blocks in registers (R243, R244) -/

/-- VQUANT: 32 elements, the scale in byte 32, zeros above. -/
def State.quantiseTo (s : State) (t : Mx) (d a b : VReg) (rm : Rm) : Result :=
  let lanes := (vlanes 1 (s.rv a) ++ vlanes 1 (s.rv b)).map fun x => (x, Rnd.mode (rmOf rm))
  let (es, scale, fl) := t.quantise lanes
  .next ((s.setV 8 d (vecOf 7 (es ++ [scale]))).setFlags 8 fl)

/-- VQUANT.E4M3 (R243). -/
def execVquantE4m3 (d a b : VReg) (rm : Rm) (s : State) : Result := s.quantiseTo .e4m3 d a b rm
/-- VQUANT.E5M2 (R243). -/
def execVquantE5m2 (d a b : VReg) (rm : Rm) (s : State) : Result := s.quantiseTo .e5m2 d a b rm
/-- VQUANT.INT8 (R243). -/
def execVquantInt8 (d a b : VReg) (rm : Rm) (s : State) : Result := s.quantiseTo .int8 d a b rm

/-- VDEQ: half h of a block laid out as VQUANT writes it. -/
def State.dequantiseTo (s : State) (t : Mx) (d a : VReg) (h : Bool) (rm : Rm) : Result :=
  let bs := vlanes 7 (s.rv a)
  s.setLanes 8 1 d (((bs.drop (16 * h.toNat)).take 16).map fun e => t.widen (rmOf rm) (bs.getD 32 0) e)

/-- VDEQ.E4M3 (R244). -/
def execVdeqE4m3 (d a : VReg) (h : Bool) (rm : Rm) (s : State) : Result := s.dequantiseTo .e4m3 d a h rm
/-- VDEQ.E5M2 (R244). -/
def execVdeqE5m2 (d a : VReg) (h : Bool) (rm : Rm) (s : State) : Result := s.dequantiseTo .e5m2 d a h rm
/-- VDEQ.INT8 (R244). -/
def execVdeqInt8 (d a : VReg) (h : Bool) (rm : Rm) (s : State) : Result := s.dequantiseTo .int8 d a h rm

/-! ## Block operands (R245) -/

/-- The address leads to the issuer's own scratchpad (R254 step 2). -/
def State.blockLocal (s : State) (va : Word) : Check Unit :=
  match s.myTarget va with
  | some t => if s.isLocal t then .ok () else .error (0x04, 0, va)
  | none => .error (0x04, 0, va)

/-- The block of n bytes is 8-byte aligned within one window (R254 step 3); its scratchpad offset. -/
def blockFits (va : Word) (n : Nat) : Check Nat :=
  if va.toNat % 8 ≠ 0 ∨ 0x20000 < va.toNat % 0x20000 + n then .error (0x03, 0, va) else .ok (va.toNat % 0x20000)

/-- The regions grant bits over ranges of the block (R254 step 4). -/
def State.blockMay (s : State) (va : Word) (rs : List (List Nat × Nat × Nat)) : Check Unit :=
  if rs.all fun r => r.2.2 == 0 || s.me.permits r.1 r.2.1 r.2.2 then .ok () else .error (0x04, 0, va)

/-- Checks a block operand of n bytes, its ranges given from its offset. -/
def State.block (s : State) (va : Word) (n : Nat) (rs : Nat → List (List Nat × Nat × Nat)) : Check Nat := do
  s.blockLocal va
  let o ← blockFits va n
  s.blockMay va (rs o)
  .ok o

/-- What reading bytes of blocks and writing others leaves: poison noticed, and the stall of the lines touched (R70,
R245, R255). -/
def State.touchRanges (s : State) (rs ws : List (Nat × Nat)) : State :=
  (rs.foldl (fun s r => s.consume (spadKey (coreOf s.cur) r.1) r.2) s).stallFor
    ((rs ++ ws).flatMap fun r => upFrom r.1 r.2)

/-- Bytes of a block that land together (R245). -/
def State.landBlock (s : State) (lat o : Nat) (bs : List Byte) : State := s.result lat (.block (s.writerOf s.cur) o bs)

/-! ## GAB (R246, R247) -/

/-- VGAB (R246). -/
def execVgab (d : VReg) (a b : SReg) (s : State) : Result :=
  s.orTrap (s.block (s.rs a) 264 fun o => [([3, 4], o, 264)]) fun o =>
    let (g, fl) := Gab.addAll (sextNat 8 (fld 8 8 (s.rs b))) (Gab.read (s.spadBytes o 264)) (16 * fld 0 2 (s.rs b))
      (vlanes 1 (s.rv d))
    .next (((s.touchRanges [(o, 264)] [(o, 264)]).landBlock 16 o g.bytes).setFlags 16 fl)

/-- VGABR (R247). -/
def execVgabr (d : VReg) (a b : SReg) (rm : Rm) (s : State) : Result :=
  let q := fld 0 2 (s.rs b)
  s.orTrap (s.block (s.rs a) 264 fun o => [([3], o, 8), ([3], o + 8 + 64 * q, 64)]) fun o =>
    let g := Gab.read (s.spadBytes o 264)
    (s.touchRanges [(o, 8), (o + 8 + 64 * q, 64)] []).setLanes 4 1 d
      ((upFrom (16 * q) 16).map fun i => g.value (rmOf rm) i)

/-! ## ABF (R248 to R251) -/

/-- VEXPMAX (R248). -/
def execVexpmax (t : FTy) (d : SReg) (a : VReg) (s : State) : Result :=
  .next (s.setS 4 d (BitVec.ofInt 64 ((maxExponent ((vlanes t.toNat (s.rv a)).map (tyOf t).decode)).getD (-32768))))

/-- VABF (R249): one part of a block, and its header. -/
def execVabf (t : FTy) (d : VReg) (a b : SReg) (s : State) : Result :=
  let wide := t == 0
  let l := laneCount t.toNat
  let p := fld 16 2 (s.rs b) % (32 / l)
  let ex := sextNat 16 (fld 0 16 (s.rs b))
  let at' := 8 + abfLane wide * (p * l)
  s.orTrap (s.block (s.rs a) (abfSize wide) fun o =>
      [([3], o, if p = 0 then 0 else 8), ([4], o, 8), ([4], o + at', abfLane wide * l)]) fun o =>
    let ps := (vlanes t.toNat (s.rv d)).map fun x => abfPack wide ex ((tyOf t).decode x)
    let old : Abf :=
      if p = 0 then { count := 1, src := t.toNat, mis := false, ovf := false, ninf := false, pinf := false, nan := false,
                      exp := ex }
      else Abf.read (s.spadNum o 8)
    let h := ps.foldl (fun h x => h.orFlags x.2.1) old
    let s := s.touchRanges (if p = 0 then [] else [(o, 8)]) [(o, 8), (o + at', abfLane wide * l)]
    let s := s.landBlock 4 o (bytesOf 8 h.num)
    let s := s.landBlock 4 (o + at') (ps.flatMap fun x => bytesOf (abfLane wide) (wrapInt (8 * abfLane wide) x.1))
    .next (s.setFlags 4 (orFl (ps.map (·.2.2))))

/-- VABFADD: each check step over sa, sb and sd before the next (R245, R250). -/
def execVabfadd (abf64 : Bool) (d a b : SReg) (s : State) : Result :=
  let wide := !abf64
  let n := abfSize wide
  let va := s.rs a
  let vb := s.rs b
  let vd := s.rs d
  let check : Check (Nat × Nat × Nat) := do
    s.blockLocal va
    s.blockLocal vb
    s.blockLocal vd
    let x ← blockFits va n
    let y ← blockFits vb n
    let z ← blockFits vd n
    s.blockMay va [([3], x, n)]
    s.blockMay vb [([3], y, n)]
    s.blockMay vd [([4], z, n)]
    .ok (x, y, z)
  s.orTrap check fun (x, y, z) =>
    let sum := abfAdd wide (s.spadBytes x n) (s.spadBytes y n)
    .next ((s.touchRanges [(x, n), (y, n)] [(z, n)]).landBlock 4 z sum)

/-- VABFX: ABF96 when the header's src is 000 (R251). -/
def execVabfx (t : FTy) (d : VReg) (a b : SReg) (rm : Rm) (s : State) : Result :=
  let va := s.rs a
  let o := va.toNat % 0x20000
  let h := Abf.read (s.spadNum o 8)
  let wide := h.src == 0
  let l := laneCount t.toNat
  let p := fld 0 2 (s.rs b) % (32 / l)
  let at' := 8 + abfLane wide * (p * l)
  s.orTrap (s.block va (abfSize wide) fun o => [([3], o, 8), ([3], o + at', abfLane wide * l)]) fun o =>
    let bs := s.spadBytes o (abfSize wide)
    (s.touchRanges [(o, 8), (o + at', abfLane wide * l)] []).setLanes 4 t.toNat d
      ((upFrom (p * l) l).map fun j => abfExtract (tyOf t) (rmOf rm) h (abfLaneOf wide bs j))

end Sys2Proof.Machine
end

