-- ==== Sys2Proof/Machine/Dispatch.lean ====
section
/-! DEFINITION. The dispatcher: one arm for each instruction and event. -/

namespace Sys2Proof.Machine

/-- The effect of one syllable of the issuing slot, or of one event. -/
def exec (i : Instr) (s : State) : Host.Outcome State Fault Refusal :=
  match i with
  | .cnop => Sys2Proof.Machine.execCnop s
  | .li d imm => Sys2Proof.Machine.execLi d imm s
  | .lix d imm => Sys2Proof.Machine.execLix d imm s
  | .lixHi d ext => Sys2Proof.Machine.execLixHi d ext s
  | .addi d a imm => Sys2Proof.Machine.execAddi d a imm s
  | .movpToScalar d a => Sys2Proof.Machine.execMovpToScalar d a s
  | .movpToPred d a => Sys2Proof.Machine.execMovpToPred d a s
  | .movpAnd d a b => Sys2Proof.Machine.execMovpAnd d a b s
  | .movpOr d a b => Sys2Proof.Machine.execMovpOr d a b s
  | .movpXor d a b => Sys2Proof.Machine.execMovpXor d a b s
  | .movpNot d a => Sys2Proof.Machine.execMovpNot d a s
  | .getsr d n => Sys2Proof.Machine.execGetsr d n s
  | .setsr n a => Sys2Proof.Machine.execSetsr n a s
  | .inboxWrite slot v => Sys2Proof.Machine.execInboxWrite slot v s
  | .bankkeyWrite part v => Sys2Proof.Machine.execBankkeyWrite part v s
  | .br imm => Sys2Proof.Machine.execBr imm s
  | .brp p inv imm => Sys2Proof.Machine.execBrp p inv imm s
  | .call imm => Sys2Proof.Machine.execCall imm s
  | .jr d a imm => Sys2Proof.Machine.execJr d a imm s
  | .loop d imm => Sys2Proof.Machine.execLoop d imm s
  | .yield => Sys2Proof.Machine.execYield s
  | .fuse d a => Sys2Proof.Machine.execFuse d a s
  | .split => Sys2Proof.Machine.execSplit s
  | .tend => Sys2Proof.Machine.execTend s
  | .ld d a sz u imm => Sys2Proof.Machine.execLd d a sz u imm s
  | .ldx d a b sz u sc => Sys2Proof.Machine.execLdx d a b sz u sc s
  | .st d a sz imm => Sys2Proof.Machine.execSt d a sz imm s
  | .stx d a b sz sc => Sys2Proof.Machine.execStx d a b sz sc s
  | .vld d a cls imm => Sys2Proof.Machine.execVld d a cls imm s
  | .vst d a cls imm => Sys2Proof.Machine.execVst d a cls imm s
  | .vlds d a b q cls => Sys2Proof.Machine.execVlds d a b q cls s
  | .vsts d a b q cls => Sys2Proof.Machine.execVsts d a b q cls s
  | .vgath d a b q cls => Sys2Proof.Machine.execVgath d a b q cls s
  | .vscat d a b q cls => Sys2Proof.Machine.execVscat d a b q cls s
  | .amoAdd d a b w => Sys2Proof.Machine.execAmoAdd d a b w s
  | .amoSmin d a b w => Sys2Proof.Machine.execAmoSmin d a b w s
  | .amoSmax d a b w => Sys2Proof.Machine.execAmoSmax d a b w s
  | .amoUmin d a b w => Sys2Proof.Machine.execAmoUmin d a b w s
  | .amoUmax d a b w => Sys2Proof.Machine.execAmoUmax d a b w s
  | .amoAnd d a b w => Sys2Proof.Machine.execAmoAnd d a b w s
  | .amoOr d a b w => Sys2Proof.Machine.execAmoOr d a b w s
  | .amoXor d a b w => Sys2Proof.Machine.execAmoXor d a b w s
  | .amoSwap d a b w => Sys2Proof.Machine.execAmoSwap d a b w s
  | .amoCas d a b w => Sys2Proof.Machine.execAmoCas d a b w s
  | .rel d => Sys2Proof.Machine.execRel d s
  | .relf d a => Sys2Proof.Machine.execRelf d a s
  | .acq a b => Sys2Proof.Machine.execAcq a b s
  | .acqf d a b => Sys2Proof.Machine.execAcqf d a b s
  | .acqfReread slot => Sys2Proof.Machine.execAcqfReread slot s
  | .acqr a b => Sys2Proof.Machine.execAcqr a b s
  | .acqrAll => Sys2Proof.Machine.execAcqrAll s
  | .fenceCore d => Sys2Proof.Machine.execFenceCore d s
  | .fenceDevice d => Sys2Proof.Machine.execFenceDevice d s
  | .fenceSystem d => Sys2Proof.Machine.execFenceSystem d s
  | .waitf a => Sys2Proof.Machine.execWaitf a s
  | .reclaim a => Sys2Proof.Machine.execReclaim a s
  | .logqStat d a => Sys2Proof.Machine.execLogqStat d a s
  | .logqTail d => Sys2Proof.Machine.execLogqTail d s
  | .logqVoid d a => Sys2Proof.Machine.execLogqVoid d a s
  | .logqResend d a => Sys2Proof.Machine.execLogqResend d a s
  | .pref a imm => Sys2Proof.Machine.execPref a imm s
  | .cpy d a => Sys2Proof.Machine.execCpy d a s
  | .cpyq d a => Sys2Proof.Machine.execCpyq d a s
  | .send d a b len => Sys2Proof.Machine.execSend d a b len s
  | .recv d => Sys2Proof.Machine.execRecv d s
  | .poll d => Sys2Proof.Machine.execPoll d s
  | .deq d => Sys2Proof.Machine.execDeq d s
  | .epn d => Sys2Proof.Machine.execEpn d s
  | .epnC d a => Sys2Proof.Machine.execEpnC d a s
  | .epnL d => Sys2Proof.Machine.execEpnL d s
  | .chkerr d => Sys2Proof.Machine.execChkerr d s
  | .bar d => Sys2Proof.Machine.execBar d s
  | .barC d => Sys2Proof.Machine.execBarC d s
  | .bargen d a => Sys2Proof.Machine.execBargen d a s
  | .barwait a b => Sys2Proof.Machine.execBarwait a b s
  | .ttload a b => Sys2Proof.Machine.execTtload a b s
  | .tsend a b => Sys2Proof.Machine.execTsend a b s
  | .flitDeparture core => Sys2Proof.Machine.execFlitDeparture core s
  | .trecv a b => Sys2Proof.Machine.execTrecv a b s
  | .commend d => Sys2Proof.Machine.execCommend d s
  | .mtrx d a b => Sys2Proof.Machine.execMtrx d a b s
  | .mq d a => Sys2Proof.Machine.execMq d a s
  | .mpoll d a => Sys2Proof.Machine.execMpoll d a s
  | .mwait a => Sys2Proof.Machine.execMwait a s
  | .accld a b t rm => Sys2Proof.Machine.execAccld a b t rm s
  | .accst a b t rm => Sys2Proof.Machine.execAccst a b t rm s
  | .mbind d a => Sys2Proof.Machine.execMbind d a s
  | .mver d a => Sys2Proof.Machine.execMver d a s
  | .munbind a => Sys2Proof.Machine.execMunbind a s
  | .mreset a => Sys2Proof.Machine.execMreset a s
  | .mupd d a => Sys2Proof.Machine.execMupd d a s
  | .mhist d a => Sys2Proof.Machine.execMhist d a s
  | .trap a => Sys2Proof.Machine.execTrap a s
  | .gkill d a => Sys2Proof.Machine.execGkill d a s
  | .eret => Sys2Proof.Machine.execEret s
  | .sigchk imm => Sys2Proof.Machine.execSigchk imm s
  | .tinv a b => Sys2Proof.Machine.execTinv a b s
  | .tinvAll => Sys2Proof.Machine.execTinvAll s
  | .cHint maj bits => Sys2Proof.Machine.execCHint maj bits s
  | .add d a b => Sys2Proof.Machine.execAdd d a b s
  | .sub d a b => Sys2Proof.Machine.execSub d a b s
  | .mul d a b => Sys2Proof.Machine.execMul d a b s
  | .mulhs d a b => Sys2Proof.Machine.execMulhs d a b s
  | .mulhu d a b => Sys2Proof.Machine.execMulhu d a b s
  | .div d a b => Sys2Proof.Machine.execDiv d a b s
  | .divu d a b => Sys2Proof.Machine.execDivu d a b s
  | .rem d a b => Sys2Proof.Machine.execRem d a b s
  | .remu d a b => Sys2Proof.Machine.execRemu d a b s
  | .and d a b => Sys2Proof.Machine.execAnd d a b s
  | .or d a b => Sys2Proof.Machine.execOr d a b s
  | .xor d a b => Sys2Proof.Machine.execXor d a b s
  | .andn d a b => Sys2Proof.Machine.execAndn d a b s
  | .orn d a b => Sys2Proof.Machine.execOrn d a b s
  | .xnor d a b => Sys2Proof.Machine.execXnor d a b s
  | .shl d a b => Sys2Proof.Machine.execShl d a b s
  | .shr d a b => Sys2Proof.Machine.execShr d a b s
  | .sra d a b => Sys2Proof.Machine.execSra d a b s
  | .rol d a b => Sys2Proof.Machine.execRol d a b s
  | .smin d a b => Sys2Proof.Machine.execSmin d a b s
  | .smax d a b => Sys2Proof.Machine.execSmax d a b s
  | .umin d a b => Sys2Proof.Machine.execUmin d a b s
  | .umax d a b => Sys2Proof.Machine.execUmax d a b s
  | .clz d a => Sys2Proof.Machine.execClz d a s
  | .ctz d a => Sys2Proof.Machine.execCtz d a s
  | .popc d a => Sys2Proof.Machine.execPopc d a s
  | .brev d a => Sys2Proof.Machine.execBrev d a s
  | .bswap d a => Sys2Proof.Machine.execBswap d a s
  | .cmpEq d a b => Sys2Proof.Machine.execCmpEq d a b s
  | .cmpNe d a b => Sys2Proof.Machine.execCmpNe d a b s
  | .cmpLt d a b => Sys2Proof.Machine.execCmpLt d a b s
  | .cmpLe d a b => Sys2Proof.Machine.execCmpLe d a b s
  | .cmpLtu d a b => Sys2Proof.Machine.execCmpLtu d a b s
  | .cmpLeu d a b => Sys2Proof.Machine.execCmpLeu d a b s
  | .sel d a b => Sys2Proof.Machine.execSel d a b s
  | .bfx d a b => Sys2Proof.Machine.execBfx d a b s
  | .bfi d a b => Sys2Proof.Machine.execBfi d a b s
  | .adda d a b => Sys2Proof.Machine.execAdda d a b s
  | .fadd t d a b rm => Sys2Proof.Machine.execFadd t d a b rm s
  | .fsub t d a b rm => Sys2Proof.Machine.execFsub t d a b rm s
  | .fmul t d a b rm => Sys2Proof.Machine.execFmul t d a b rm s
  | .ffma t d a b rm => Sys2Proof.Machine.execFfma t d a b rm s
  | .fdiv t d a b rm => Sys2Proof.Machine.execFdiv t d a b rm s
  | .fsqrt t d a rm => Sys2Proof.Machine.execFsqrt t d a rm s
  | .fmin t d a b => Sys2Proof.Machine.execFmin t d a b s
  | .fmax t d a b => Sys2Proof.Machine.execFmax t d a b s
  | .fminn t d a b => Sys2Proof.Machine.execFminn t d a b s
  | .fmaxn t d a b => Sys2Proof.Machine.execFmaxn t d a b s
  | .fcmpEq t d a b => Sys2Proof.Machine.execFcmpEq t d a b s
  | .fcmpNe t d a b => Sys2Proof.Machine.execFcmpNe t d a b s
  | .fcmpLt t d a b => Sys2Proof.Machine.execFcmpLt t d a b s
  | .fcmpLe t d a b => Sys2Proof.Machine.execFcmpLe t d a b s
  | .fcmpUn t d a b => Sys2Proof.Machine.execFcmpUn t d a b s
  | .fcmpOrd t d a b => Sys2Proof.Machine.execFcmpOrd t d a b s
  | .fcvt t src d a rm => Sys2Proof.Machine.execFcvt t src d a rm s
  | .fcvtu t src d a rm => Sys2Proof.Machine.execFcvtu t src d a rm s
  | .fclass t d a => Sys2Proof.Machine.execFclass t d a s
  | .fabs t d a => Sys2Proof.Machine.execFabs t d a s
  | .fneg t d a => Sys2Proof.Machine.execFneg t d a s
  | .fcpsgn t d a b => Sys2Proof.Machine.execFcpsgn t d a b s
  | .exp2 t d a => Sys2Proof.Machine.execExp2 t d a s
  | .log2 t d a => Sys2Proof.Machine.execLog2 t d a s
  | .sin t d a => Sys2Proof.Machine.execSin t d a s
  | .cos t d a => Sys2Proof.Machine.execCos t d a s
  | .tanh t d a => Sys2Proof.Machine.execTanh t d a s
  | .rcp t d a => Sys2Proof.Machine.execRcp t d a s
  | .rsq t d a => Sys2Proof.Machine.execRsq t d a s
  | .vadd t d a b rm => Sys2Proof.Machine.execVadd t d a b rm s
  | .vsub t d a b rm => Sys2Proof.Machine.execVsub t d a b rm s
  | .vmul t d a b rm => Sys2Proof.Machine.execVmul t d a b rm s
  | .vfma t d a b rm => Sys2Proof.Machine.execVfma t d a b rm s
  | .vmin t d a b => Sys2Proof.Machine.execVmin t d a b s
  | .vmax t d a b => Sys2Proof.Machine.execVmax t d a b s
  | .vand d a b => Sys2Proof.Machine.execVand d a b s
  | .vor d a b => Sys2Proof.Machine.execVor d a b s
  | .vxor d a b => Sys2Proof.Machine.execVxor d a b s
  | .vandn d a b => Sys2Proof.Machine.execVandn d a b s
  | .vorn d a b => Sys2Proof.Machine.execVorn d a b s
  | .vxnor d a b => Sys2Proof.Machine.execVxnor d a b s
  | .vshl t d a b => Sys2Proof.Machine.execVshl t d a b s
  | .vshr t d a b => Sys2Proof.Machine.execVshr t d a b s
  | .vsra t d a b => Sys2Proof.Machine.execVsra t d a b s
  | .vrol t d a b => Sys2Proof.Machine.execVrol t d a b s
  | .vcmpEq t d a b => Sys2Proof.Machine.execVcmpEq t d a b s
  | .vcmpNe t d a b => Sys2Proof.Machine.execVcmpNe t d a b s
  | .vcmpLt t d a b => Sys2Proof.Machine.execVcmpLt t d a b s
  | .vcmpLe t d a b => Sys2Proof.Machine.execVcmpLe t d a b s
  | .vcmpUnLtu t d a b => Sys2Proof.Machine.execVcmpUnLtu t d a b s
  | .vcmpOrdLeu t d a b => Sys2Proof.Machine.execVcmpOrdLeu t d a b s
  | .vsel t d a b => Sys2Proof.Machine.execVsel t d a b s
  | .vcvt t src q d a rm => Sys2Proof.Machine.execVcvt t src q d a rm s
  | .vcvtu t src q d a rm => Sys2Proof.Machine.execVcvtu t src q d a rm s
  | .vexp2 t d a => Sys2Proof.Machine.execVexp2 t d a s
  | .vlog2 t d a => Sys2Proof.Machine.execVlog2 t d a s
  | .vsin t d a => Sys2Proof.Machine.execVsin t d a s
  | .vcos t d a => Sys2Proof.Machine.execVcos t d a s
  | .vtanh t d a => Sys2Proof.Machine.execVtanh t d a s
  | .vrcp t d a => Sys2Proof.Machine.execVrcp t d a s
  | .vrsq t d a => Sys2Proof.Machine.execVrsq t d a s
  | .vredSum t d a rm => Sys2Proof.Machine.execVredSum t d a rm s
  | .vredMin t d a => Sys2Proof.Machine.execVredMin t d a s
  | .vredMax t d a => Sys2Proof.Machine.execVredMax t d a s
  | .vshuf t d a b => Sys2Proof.Machine.execVshuf t d a b s
  | .vbcast t d a => Sys2Proof.Machine.execVbcast t d a s
  | .vins t d a b => Sys2Proof.Machine.execVins t d a b s
  | .vext t d a b => Sys2Proof.Machine.execVext t d a b s
  | .vrngI32 d a b => Sys2Proof.Machine.execVrngI32 d a b s
  | .vrngF32 d a b => Sys2Proof.Machine.execVrngF32 d a b s
  | .vdrop d a b rm => Sys2Proof.Machine.execVdrop d a b rm s
  | .vquantE4m3 d a b rm => Sys2Proof.Machine.execVquantE4m3 d a b rm s
  | .vquantE5m2 d a b rm => Sys2Proof.Machine.execVquantE5m2 d a b rm s
  | .vquantInt8 d a b rm => Sys2Proof.Machine.execVquantInt8 d a b rm s
  | .vdeqE4m3 d a h rm => Sys2Proof.Machine.execVdeqE4m3 d a h rm s
  | .vdeqE5m2 d a h rm => Sys2Proof.Machine.execVdeqE5m2 d a h rm s
  | .vdeqInt8 d a h rm => Sys2Proof.Machine.execVdeqInt8 d a h rm s
  | .vgab d a b => Sys2Proof.Machine.execVgab d a b s
  | .vgabr d a b rm => Sys2Proof.Machine.execVgabr d a b rm s
  | .vabf t d a b => Sys2Proof.Machine.execVabf t d a b s
  | .vabfadd abf64 d a b => Sys2Proof.Machine.execVabfadd abf64 d a b s
  | .vabfx t d a b rm => Sys2Proof.Machine.execVabfx t d a b rm s
  | .vexpmax t d a => Sys2Proof.Machine.execVexpmax t d a s
  | .aHint bits => Sys2Proof.Machine.execAHint bits s
  | .strefused slot => Sys2Proof.Machine.execStrefused slot s
  | .launchMessage part => Sys2Proof.Machine.execLaunchMessage part s
  | .taskStart slot => Sys2Proof.Machine.execTaskStart slot s
  | .slotWake slot => Sys2Proof.Machine.execSlotWake slot s
  | .watchdogForcedSwitch slot => Sys2Proof.Machine.execWatchdogForcedSwitch slot s
  | .fuseTimeout slot => Sys2Proof.Machine.execFuseTimeout slot s
  | .entryAcceptance slot seq => Sys2Proof.Machine.execEntryAcceptance slot seq s
  | .crystallisation slot seq => Sys2Proof.Machine.execCrystallisation slot seq s
  | .barrier part bgrp => Sys2Proof.Machine.execBarrier part bgrp s
  | .settleLimit part bgrp => Sys2Proof.Machine.execSettleLimit part bgrp s
  | .barrierRelease part bgrp slack => Sys2Proof.Machine.execBarrierRelease part bgrp slack s
  | .phaseLimit slot => Sys2Proof.Machine.execPhaseLimit slot s
  | .flitArrival core index => Sys2Proof.Machine.execFlitArrival core index s
  | .trecvWindowClose core index => Sys2Proof.Machine.execTrecvWindowClose core index s
  | .dropNotice core => Sys2Proof.Machine.execDropNotice core s
  | .messageDelivery core index lat => Sys2Proof.Machine.execMessageDelivery core index lat s
  | .undeliverableNotice core index => Sys2Proof.Machine.execUndeliverableNotice core index s
  | .chunkRecord slot id chunk => Sys2Proof.Machine.execChunkRecord slot id chunk s
  | .copyCompletion slot id => Sys2Proof.Machine.execCopyCompletion slot id s
  | .jobStart lcol => Sys2Proof.Machine.execJobStart lcol s
  | .jobCompletion lcol => Sys2Proof.Machine.execJobCompletion lcol s
  | .maskShareCompletion slot id => Sys2Proof.Machine.execMaskShareCompletion slot id s
  | .mhistCompletion slot id => Sys2Proof.Machine.execMhistCompletion slot id s
  | .retirementCleaned part layer rslot => Sys2Proof.Machine.execRetirementCleaned part layer rslot s
  | .maskEngineRetry part layer rslot => Sys2Proof.Machine.execMaskEngineRetry part layer rslot s
  | .walkRetry slot => Sys2Proof.Machine.execWalkRetry slot s
  | .replay core bundle => Sys2Proof.Machine.execReplay core bundle s
  | .replayPeriod core => Sys2Proof.Machine.execReplayPeriod core s
  | .receiveParityError data => Sys2Proof.Machine.execReceiveParityError data s
  | .softErrorCorrected => Sys2Proof.Machine.execSoftErrorCorrected s
  | .uncorrectableError place => Sys2Proof.Machine.execUncorrectableError place s
  | .vbusParityFailure lcol repeats => Sys2Proof.Machine.execVbusParityFailure lcol repeats s
  | .cxlMemRead port addr len => Sys2Proof.Machine.execCxlMemRead port addr len s
  | .cxlMemWrite port addr bytes => Sys2Proof.Machine.execCxlMemWrite port addr bytes s
  | .registerWrite port register bytes => Sys2Proof.Machine.execRegisterWrite port register bytes s
  | .ldoor port part => Sys2Proof.Machine.execLdoor port part s
  | .claim port => Sys2Proof.Machine.execClaim port s
  | .release port => Sys2Proof.Machine.execRelease port s
  | .handover port target => Sys2Proof.Machine.execHandover port target s
  | .accept port => Sys2Proof.Machine.execAccept port s
  | .handoverLapse => Sys2Proof.Machine.execHandoverLapse s
  | .ownerLinkLoss => Sys2Proof.Machine.execOwnerLinkLoss s
  | .pcreate port => Sys2Proof.Machine.execPcreate port s
  | .pdestroy port => Sys2Proof.Machine.execPdestroy port s
  | .pinfo port => Sys2Proof.Machine.execPinfo port s
  | .fwstage port verdict version digest => Sys2Proof.Machine.execFwstage port verdict version digest s
  | .pdevmap port => Sys2Proof.Machine.execPdevmap port s
  | .slotreg port => Sys2Proof.Machine.execSlotreg port s
  | .gkillCommand port => Sys2Proof.Machine.execGkillCommand port s
  | .pswitchCheckpoint port => Sys2Proof.Machine.execPswitchCheckpoint port s
  | .pswitchOut port => Sys2Proof.Machine.execPswitchOut port s
  | .presume port => Sys2Proof.Machine.execPresume port s
  | .pslice port => Sys2Proof.Machine.execPslice port s
  | .fwactivate port => Sys2Proof.Machine.execFwactivate port s
  | .telem port => Sys2Proof.Machine.execTelem port s
  | .mstat port => Sys2Proof.Machine.execMstat port s
  | .mlog port => Sys2Proof.Machine.execMlog port s
  | .hmap port => Sys2Proof.Machine.execHmap port s
  | .qrec port => Sys2Proof.Machine.execQrec port s
  | .sppr port => Sys2Proof.Machine.execSppr port s
  | .hppr port => Sys2Proof.Machine.execHppr port s
  | .pwrlim port => Sys2Proof.Machine.execPwrlim port s
  | .badcmd port => Sys2Proof.Machine.execBadcmd port s
  | .doeDiscovery port => Sys2Proof.Machine.execDoeDiscovery port s
  | .getcert port => Sys2Proof.Machine.execGetcert port s
  | .getreport port nonce => Sys2Proof.Machine.execGetreport port nonce s
  | .switchOut part => Sys2Proof.Machine.execSwitchOut part s
  | .switchIn part => Sys2Proof.Machine.execSwitchIn part s
  | .sliceExpiry part => Sys2Proof.Machine.execSliceExpiry part s
  | .powerClockStep => Sys2Proof.Machine.execPowerClockStep s
  | .thermalShutdown => Sys2Proof.Machine.execThermalShutdown s
  | .moduleReset => Sys2Proof.Machine.execModuleReset s
  | .coreSettled part participant => Sys2Proof.Machine.execCoreSettled part participant s
  | .linkDown port => Sys2Proof.Machine.execLinkDown port s
  | .linkUp port => Sys2Proof.Machine.execLinkUp port s
  | .deviceAccessArrival kind addr bytes => Sys2Proof.Machine.execDeviceAccessArrival kind addr bytes s

end Sys2Proof.Machine
end

