-- ==== Sys2Proof/Machine/Run.lean ====
section
/-! DEFINITION. Running a bundle: its syllables together, the members of a gang, and a core's turn (R42, R48, R49, R90,
R177, R187). -/

namespace Sys2Proof.Machine

/-- Runs the syllables of a bundle of the issuing slot: both read before either result lands, and a precise trap of
either leaves the other without effect; an ILLEGAL of the second comes before another trap of the first
(R187, R338). The block instruction of a pair reads scratchpad bytes that the C syllable stores in the same cycle as
they are after it (DESIGN CHOICE, log 100). -/
def runBundle (b : Bundle) (s : State) : Result :=
  match exec b.1 s with
  | .next c =>
    match b.2 with
    | none => .next (c.rememberRedo b.1 c)
    | some a =>
      if c.flow = .trapped then
        match exec a s with
        | .next t => .next (if t.flow = .trapped ∧ fld 0 8 t.me.trap.cause = 1 then t else c)
        | o => o
      else if c.flow = .held then .next c
      else
        match exec a s with
        | .next t => if t.flow = .trapped then .next t else if c.flow = .ended then .next c else
          match exec a c with
          | .next d => .next ({ d with flow := c.flow }.rememberRedo b.1 c)
          | o => o
        | o => o
  | o => o

/-- Runs a bundle as one member of a gang. -/
def runMember (b : Bundle) (pc ir : Word) (k : Nat) (s : State) : Result :=
  runBundle b ({ s with cur := k, ir := ir, flow := .seq }.modSlot k fun t => { t with pc := pc })

/-- What a bundle does to a member's control, tried on a state. -/
def flowOf (b : Bundle) (pc ir : Word) (s : State) (k : Nat) : Flow :=
  match runMember b pc ir k s with
  | .next t => t.flow
  | _ => .seq

/-- A switch point (R42). -/
def Flow.leavesCore : Flow → Bool
  | .held | .slept | .answered | .switched | .jumped true => true
  | .seq | .taken _ _ | .jumped false | .resumed _ | .trapped | .ended => false

/-- Runs a bundle on members one after another, and keeps what it did to the control of each. -/
def runMembers (b : Bundle) (pc ir : Word) (s : State) : List Nat → Host.Outcome (State × List (Nat × Flow)) Fault Refusal
  | [] => .next (s, [])
  | k :: ks =>
    match runMember b pc ir k s with
    | .next t =>
      match runMembers b pc ir t ks with
      | .next r => .next (r.1, (k, t.flow) :: r.2)
      | o => o
    | .fault f => .fault f
    | .refused r => .refused r

/-- What follows the bundle in each member, the loop stack of the leader, which comes last, standing until then (R216). -/
def State.settleMembers (s : State) (ir : Word) (fs : List (Nat × Flow)) : State :=
  fs.foldl (fun s x => { s with cur := x.1, ir := ir, flow := x.2 }.settle) s

/-- Runs a bundle on the members that trap, each as a member of the gang, which its trap dissolves (R49). -/
def trapMembers (b : Bundle) (pc ir : Word) (g : Gang) (s : State) : List Nat → Result
  | [] => .next s
  | k :: ks =>
    if (s.slot k).status = .free then trapMembers b pc ir g s ks
    else
      match runMember b pc ir k { s with gangs := g :: s.gangs.filter fun x => x != g } with
      | .next t => trapMembers b pc ir g t.settle ks
      | o => o

/-- A gang's bundle (R48, R49): a trap of any member dissolves the gang, and only the members that trap act on the
bundle; a member that must hold its bundle holds the gang; else every member runs it, the leader last, before the bundle
is over in any of them; a switch point of one member is one of all. -/
def runGang (g : Gang) (b : Bundle) (s : State) : Result :=
  let pc := s.me.pc
  let ir := s.ir
  let order := g.members.reverse
  let trapping := order.filter fun k => flowOf b pc ir s k == .trapped
  if trapping ≠ [] then
    let u := g.members.foldl (fun s k => s.modSlot k fun t => { t with pc := pc }) s
    trapMembers b pc ir g u trapping
  else
    let holding := order.filter fun k => flowOf b pc ir s k == .held
    let leaving := order.any fun k => (flowOf b pc ir s k).leavesCore
    match runMembers b pc ir s (if holding ≠ [] then holding else order) with
    | .next r =>
      let t := r.1.settleMembers ir r.2
      .next (if leaving then g.members.foldl (fun t k => if (t.slot k).status = .free then t else t.switchPoint k) t else t)
    | .fault f => .fault f
    | .refused r => .refused r

/-- The gang that issues with the issuing slot: it stands, and the slot's own FUSE is behind it (R47, R48). -/
def State.myGang (s : State) : Option Gang :=
  (s.gangOf (coreOf s.cur)).filter fun g => g.members.contains s.cur && !g.joining.contains s.cur

/-- The slots that issue a bundle with the issuing slot, itself alone outside a gang. -/
def State.together (s : State) : List Nat := (s.myGang.map (·.members)).getD [s.cur]

/-- A bundle that cannot be fetched or decoded traps in every slot that issues it (R48, R49, R177). -/
def State.trapTogether (s : State) (code detail : Nat) (addr : Word) : State :=
  let pc := s.me.pc
  s.together.foldl (fun t k =>
    if (t.slot k).status = .free then t
    else { t.takeTrap k pc code detail addr none with cur := k, flow := .trapped }.settle) s

/-- Issues the next bundle of the slot the core is on, in a gang at its leader's pc; first a STREFUSED that is due to one
of the slots that issue it; a mismatch forced on the bundle replays it (R42, R48, R90, R177, R187, R338, R384). -/
def issueSlot (s : State) : Result :=
  match s.me.redo with
  | some r =>
    match exec r.instr ({ s with ir := r.ir, flow := .seq }.modMe fun t => { t with regs := r.read }) with
    | .next t => .next (t.endRedo r s.me.regs).settle
    | o => o
  | none =>
    match s.together.find? s.strefusedDue with
    | some k => exec (.strefused k) s
    | none =>
      let s := { s with cur := s.together.headD s.cur }
      match s.fetch with
      | .stall => .next ((s.hold (.migration s.me.pc)).enqueue s.cur s.me.pc).settle
      | .trap code detail => .next (s.trapTogether code detail s.me.pc)
      | .bundle bits s =>
        let s := { s with ir := bits, flow := .seq }
        let s := s.together.foldl (fun t k => t.forcedReplay (coreOf k) s.me.pc) s
        match decodeBundle bits.toNat with
        | .error _ => .next (s.trapTogether 0x01 0 bits)
        | .ok b =>
          match s.myGang with
          | some g =>
            runGang g b { g.members.foldl (fun s k => s.takeUpSlot (coreOf k)) s with
              cur := g.members.headD s.cur, ir := bits, flow := .seq }
          | none =>
            match runBundle b s with
            | .next t => .next t.settle
            | o => o

/-- A core's turn. -/
def issueCore (s : State) (core : Nat) : Result := issueSlot (s.takeUpSlot core)

end Sys2Proof.Machine
end

