-- ==== Sys2Proof/Machine/Step.lean ====
section
/-! DEFINITION. One step of the machine: the head of the input tape, else the next bundle of the core that is issuing,
else the next event the device owes, else a bundle of the next core that can issue, else a cycle of wafer time
(log 4). -/

namespace Sys2Proof.Machine

/-- One step. -/
def step (s : State) : Host.Outcome State Fault Refusal :=
  match s.inputs with
  | .event i :: rest =>
    if (opcode i).isSome then .fault .notAnEvent else exec i { s with inputs := rest }
  | .turn c :: rest =>
    if { s with inputs := rest }.canIssue c then issueCore { s with inputs := rest } c
    else .next { s with inputs := rest }
  | [] =>
    match s.turnOf with
    | some c =>
      if (s.core c).issuing.isSome then issueCore s c
      else
        match s.nextEvent with
        | some d => d.run s
        | none => issueCore s c
    | none =>
      match s.nextEvent with
      | some d => d.run s
      | none => .next (s.advance (s.time + 1))

/-- The state with the instruction whose table bits are w stored where the next step fetches. -/
def State.withFetchWord (s : State) (_nbits w : Nat) : State := s.placeBundle w

end Sys2Proof.Machine
end

