-- ==== Sys2Proof/Safety.lean ====
section
/-! DEFINITION. What counts as a safe run, and the terms in which claims say how an instruction completes and what it
leaves alone. -/

namespace Sys2Proof.Machine

/-! ## Safe runs -/

/-- A step answers a next state. -/
def StepsOn (s : State) : Prop := ∃ t, step s = .next t

/-- The tape holds events and turns only, so no step faults. -/
def TapeOk (s : State) : Bool :=
  s.inputs.all fun x => match x with
    | .event i => (opcode i).isNone
    | .turn _ => true

/-! ## Completing -/

/-- s with results in flight added to the issuing slot (R188, R189), and nothing else changed. -/
def State.inFlight (s : State) (rs : List InFlight) : State :=
  s.setSlot s.cur { s.me with flight := s.me.flight ++ rs }

/-- Instruction i completes in state s: these results go in flight, and nothing else of the machine changes. -/
def Completes (i : Instr) (s : State) (rs : List InFlight) : Prop := exec i s = .next (s.inFlight rs)

/-- The answer of an instruction that completes at a switch point, the slot READY (R42). -/
def State.switching (s : State) : Host.Outcome State Fault Refusal := .next { s with flow := .switched }

/-- One scalar result of a latency. -/
def sres (lat : Nat) (d : SReg) (v : Word) : List InFlight := [{ left := lat, what := .sreg d v }]

/-- One vector result of a latency. -/
def vres (lat : Nat) (d : VReg) (v : Vec) : List InFlight := [{ left := lat, what := .vreg d v }]

/-- One predicate result of a latency. -/
def pres (lat : Nat) (d : PReg) (v : Bool) : List InFlight := [{ left := lat, what := .preg d v }]

/-- The flags of an instruction, in flight when there are any (R109). -/
def fres (lat : Nat) (f : BitVec 7) : List InFlight := if f = 0 then [] else [{ left := lat, what := .fpflags f }]

/-- A syllable's low 24 bits from its fields d, a and b and the nine bits below them (R180). -/
def syllable (d a b : BitVec 5) (fn : Nat) : Nat := d.toNat * 2 ^ 19 + a.toNat * 2 ^ 14 + b.toNat * 2 ^ 9 + fn

/-- Instruction i takes a precise trap in state s, with this code, detail and address (R337). -/
def Traps (i : Instr) (s : State) (code detail : Nat) (addr : Word) : Prop :=
  exec i s = .next { s.takeTrap s.cur s.me.pc code detail addr none with flow := .trapped }

/-- No gang holds slot k's core. -/
def State.gangless (s : State) (k : Nat) : Prop := s.gangs.all (fun g => g.members.all fun m => coreOf m != coreOf k) = true

/-! ## Numbers -/

/-- The rational number of a decoded value; zero where it is none. -/
def Val.toRat : Val → ℚ
  | .fin neg m e => (if neg then -1 else 1) * (m : ℚ) * (2 : ℚ) ^ e
  | _ => 0

/-- The value is finite. -/
def Val.isFin : Val → Bool
  | .fin _ _ _ => true
  | _ => false

/-- The value in the order of the extended numbers, infinities at its ends. -/
def Val.ext : Val → WithBot (WithTop ℚ)
  | .inf true => ⊥
  | .inf false => ((⊤ : WithTop ℚ) : WithBot (WithTop ℚ))
  | v => ((v.toRat : WithTop ℚ) : WithBot (WithTop ℚ))

/-- The value in a scalar register, read in a floating-point type. -/
def State.val (s : State) (t : FTy) (r : SReg) : Val := (tyOf t).decode (s.rs r).toNat

/-- The result r is the nonzero number x rounded once into a format under a mode, with its flags (R105, R108). -/
def Fmt.RoundsTo (f : Fmt) (md : Mode) (x : ℚ) (r : Nat × Fl) : Prop :=
  ∃ (neg : Bool) (m : Nat) (e : Int), x = (Val.fin neg m e).toRat ∧ r = f.round md neg m e

/-- Bits of a scalar floating-point type (R182). -/
def fwidth (t : FTy) : Nat := if t = 0 then 64 else if t = 1 then 32 else 16

/-- The canonical quiet NaN of a type (R102). -/
def quietNaN (t : FTy) : Word :=
  if t = 0 then 0x7FF8000000000000 else if t = 1 then 0x7FC00000 else if t = 2 then 0x7FC0 else 0x7E00

/-- +Inf, the sign bit and 1.0 of a type (R100). -/
def posInf (t : FTy) : Word :=
  if t = 0 then 0x7FF0000000000000 else if t = 1 then 0x7F800000 else if t = 2 then 0x7F80 else 0x7C00
def signOf (t : FTy) : Word := if t = 0 then 0x8000000000000000 else if t = 1 then 0x80000000 else 0x8000
def oneOf (t : FTy) : Word :=
  if t = 0 then 0x3FF0000000000000 else if t = 1 then 0x3F800000 else if t = 2 then 0x3F80 else 0x3C00

/-- The gap between the finite values of a format that bracket the number y (R9). -/
def Fmt.gap (f : Fmt) (y : ℚ) : ℚ := (2 : ℚ) ^ (max (Int.log 2 |y|) f.emin - f.mw)

/-- The result r is the nonzero number x rounded once into a format under a mode, with its flags, x standing at a dyadic
number or strictly between two neighbours of an odd one of many more digits than the format has (R105, R108). -/
def Fmt.RoundsNear (f : Fmt) (md : Mode) (x : ℚ) (r : Nat × Fl) : Prop :=
  f.RoundsTo md x r ∨ ∃ (m : Nat) (e : Int), r = f.round md (decide (x < 0)) m e ∧ m % 2 = 1 ∧ 2 ^ (f.mw + 3) ≤ m ∧
    ((m : ℚ) - 1) * 2 ^ e < |x| ∧ |x| < ((m : ℚ) + 1) * 2 ^ e

/-- A result with its flags: both in flight with one latency (R109). -/
def fpres (lat : Nat) (d : SReg) (v : Word) (f : BitVec 7) : List InFlight := sres lat d v ++ fres lat f

/-- Instruction i completes with some result and flags of a latency in scalar register d. -/
def CompletesF (i : Instr) (s : State) (lat : Nat) (d : SReg) : Prop :=
  ∃ v f, Completes i s (fpres lat d v f)

/-! ## Vectors and blocks -/

/-- Lane i of w bits (R186). -/
def lane (w i : Nat) (v : Vec) : Nat := v.toNat / 2 ^ (w * i) % 2 ^ w

/-- Lane i of w bits of a vector register. -/
def State.lane (s : State) (w i : Nat) (r : VReg) : Nat := Machine.lane w i (s.rv r)

/-- Lane j of a vector's n lanes of w bits is the number (f j).1, and a flag is set where one of the lanes sets it
(R109, R221). -/
def LanesAre (w n : Nat) (f : Nat → Nat × BitVec 7) (v : Vec) (fl : BitVec 7) : Prop :=
  (∀ j < n, Machine.lane w j v = (f j).1 % 2 ^ w) ∧
    ∀ b < 7, fl.getLsbD b = (List.range n).any fun j => (f j).2.getLsbD b

/-- Instruction i completes with a vector result of a latency, its lanes and flags as f gives them. -/
def CompletesV (i : Instr) (s : State) (lat : Nat) (d : VReg) (w n : Nat) (f : Nat → Nat × BitVec 7) : Prop :=
  ∃ v fl, Completes i s (vres lat d v ++ fres lat fl) ∧ LanesAre w n f v fl

/-- The address leads to the issuing slot's own scratchpad (R254). -/
def State.ownAddr (s : State) (va : Word) : Prop := ∃ w o, s.myTarget va = some (.spad (coreOf s.cur) w o)

/-- The n bytes at an address are aligned to 8 bytes and inside one window (R245). -/
def fitsBlock (va : Word) (n : Nat) : Prop := va.toNat % 8 = 0 ∧ va.toNat % 2 ^ 17 + n ≤ 2 ^ 17

/-- Cycles that the issuing slot's access to bytes at these offsets may lose: one less than the lines of its busiest
bank, and while another requester contends at most one more for each of the access's own (R70; log 71). -/
def State.stallsFor (s : State) (os : List Nat) (n : Nat) : Prop :=
  let c := bankCycles s.curPart.bankkey os
  c - 1 ≤ n ∧ n ≤ c - 1 + c ∧ (s.contested = false → n = c - 1)

/-- Stall cycles on their way to STALLS (R336). -/
def stalled (n : Nat) : List InFlight := if n = 0 then [] else [{ left := 1, what := .stalls n }]

/-- t is s but for the issuing slot's results in flight, its access ordinal and what its access noticed in CHKINT, the
time of its core and whether another device has reached its scratchpad since (R70), and the count of free draws: everything
else of the machine stands. -/
def OnlyInFlight (s t : State) : Prop :=
  t = { s with slots := t.slots, cores := t.cores, fresh := t.fresh } ∧ (∀ k, k ≠ s.cur → t.slot k = s.slot k) ∧
    (∀ c, t.core c = { s.core c with now := (t.core c).now, probed := (t.core c).probed }) ∧
    (∀ c, c ≠ coreOf s.cur → t.core c = s.core c) ∧
    t.me = { s.me with flight := t.me.flight, ordinal := t.me.ordinal,
                       sys := { s.me.sys with chkint := t.me.sys.chkint } }

/-! ## Memory -/

/-- Home key of byte i of the issuing core's own scratchpad, and what stands there. -/
def State.ownKey (s : State) (i : Nat) : Nat := spadKey (coreOf s.cur) i
def State.ownByte (s : State) (i : Nat) : Byte := s.mem.read (s.ownKey i)

/-- The address leads to byte o of the own scratchpad through window w. -/
def State.localAt (s : State) (va : Word) (w o : Nat) : Prop := s.myTarget va = some (.spad (coreOf s.cur) w o)

/-- What a vector store of elements of n bytes leaves, byte i of element j being `byte j i`: the bytes of own elements stand
in the scratchpad, but where a higher lane's or a scale byte lies (R59, R262; log 68); those of shared elements stand in the
entries that joined the log, of each address the highest lane's last, and no other byte does (R256, R262). -/
def State.StoredElems (s t : State) (es : List Element) (n : Nat) (byte : Nat → Nat → Byte) (scales : List Nat) : Prop :=
  let new := t.me.log.entries.drop s.me.log.entries.length
  let cells := new.flatMap (·.cells)
  (∀ (j i : Nat) (e : Element), es[j]? = some e → i < n →
    (∀ w o, e.tgt = .spad (coreOf s.cur) w o → s.isLost (s.ownKey (o + i)) = false → o + i ∉ scales →
      (∀ (h : Nat) (f : Element) (x q : Nat), j < h → es[h]? = some f → f.tgt = .spad (coreOf s.cur) x q →
        ¬ (q ≤ o + i ∧ o + i < q + n)) → t.mem.read (s.ownKey (o + i)) = byte j i) ∧
    (s.isLocal e.tgt = false →
      (∀ (h x : Nat) (f : Element), j < h → es[h]? = some f → s.isLocal f.tgt = false → x < n →
        f.va + BitVec.ofNat 64 x ≠ e.va + BitVec.ofNat 64 i) →
      cells.reverse.find? (fun c => c.1 == e.va + BitVec.ofNat 64 i) = some (e.va + BitVec.ofNat 64 i, byte j i))) ∧
  (∀ x ∈ new, x.state = .appended) ∧
  ∀ c ∈ cells, ∃ (j i : Nat) (e : Element), es[j]? = some e ∧ i < n ∧ s.isLocal e.tgt = false ∧ c.1 = e.va + BitVec.ofNat 64 i

/-- The homes of an entry hold its bytes, of each home the last one it has for it, where they are not lost (R76, R77, R262,
R433). -/
def HasHome (s t : State) (e : Entry) : Prop := ∀ i < e.homes.length, ∀ k, e.homes[i]? = some k → s.isLost k = false →
  (∀ j, i < j → e.homes[j]? ≠ some k) → t.mem.read k = (e.cells.map (·.2)).getD i 0

/-- The homes of an entry hold its bytes, and no other byte of memory has changed. -/
def WrittenHome (s t : State) (e : Entry) : Prop :=
  HasHome s t e ∧ ∀ k, k ∉ e.homes ∨ s.isLost k = true → t.mem.read k = s.mem.read k

/-- An accepted entry has one home for each of its bytes, and each of them may be written (R421, R444). -/
def State.canWrite (s : State) (e : Entry) : Prop :=
  e.state = .accepted ∧ e.homes.length = e.cells.length ∧ e.homes ≠ [] ∧ ∀ k ∈ e.homes, s.heldHome k = false

/-- The inbox of slot k takes a record: it is on, its partition is on the wafer, nothing has spilled, and there is room in
its ring, none of it lost (R278, R281, R421). -/
def State.inboxTakes (s : State) (k : Nat) : Prop :=
  (s.slot k).inboxOn = true ∧ s.isOut k = false ∧ (s.slot k).spilled = [] ∧ 32 ≤ (s.slot k).ringSize - (s.slot k).ringHeld ∧
    ∀ x, s.isLost (s.ringKey k x) = false

/-- A record has joined the inbox of slot k, with n bytes of x from byte o of it on (R278). -/
def State.Posted (s t : State) (k o n x : Nat) : Prop :=
  ∀ i < n, t.mem.read (s.ringKey k ((s.slot k).ringTail + o + i)) = BitVec.ofNat 8 (x / 2 ^ (8 * i))

/-! ## Matrix jobs -/

/-- Numbers of e bytes in the panels of a job's tile: element x of row i of A, and of column n of B (R307). -/
def Job.aNum (j : Job) (s : State) (e i x : Nat) : Nat :=
  s.mem.num (spadKey (coreOf j.slot) (recNat 0x10 8 j.desc % 2 ^ 17 + i * recNat 0x0C 4 j.desc + x * e)) e
def Job.bNum (j : Job) (s : State) (e n x : Nat) : Nat :=
  s.mem.num (spadKey (coreOf j.slot) (recNat 0x18 8 j.desc % 2 ^ 17 + x * recNat 0x20 4 j.desc + n * e)) e

/-- The sum of products that a job of BF16 panels makes for row i and column n, as its gradient (R116, R311). -/
def Job.gradAt (j : Job) (s : State) (i n : Nat) : Nat :=
  (accumulate 0 ((List.range (geomK j.geom)).map fun x =>
    (fmtBF16.decode (j.aNum s 2 i x), fmtBF16.decode (j.bNum s 2 n x)))).1

/-- A block's engine runs job j alone, its tile is (ti, tj), it has started none of its cells, and its record, if it still
owes one, finds room. -/
def State.RunsAlone (s : State) (lcol ti tj : Nat) (j : Job) : Prop :=
  s.blockJobs lcol = [j] ∧ s.stillOut j.slot = false ∧ j.running = true ∧ j.tile = some (ti, tj) ∧ jobTile j.desc ≤ 7 ∧
    Memory.wf s.mem = true ∧ j.begun = false ∧ j.chunks = 0 ∧ j.fault = none ∧ lcol ∉ s.mc.unplaced ∧
    (j.orphan = true ∨ s.inboxTakes j.slot)

/-- The job has gone, with a record of kind 4 and status 0, its number, its tile and the count of what it made, where its
task lives (R40, R314). -/
def State.JobDone (s t : State) (ti tj made : Nat) (j : Job) : Prop :=
  (∀ x ∈ t.jobs, ¬ (x.slot = j.slot ∧ x.id = j.id)) ∧
    (j.orphan = false → s.Posted t j.slot 0 3 4 ∧ s.Posted t j.slot 4 4 j.id ∧ s.Posted t j.slot 16 4 ti ∧
      s.Posted t j.slot 20 4 tj ∧ s.Posted t j.slot 24 4 made)

/-! ## Mask engines -/

/-- What an engine reads of a part's live connections: of each the FP32 weight in its record, and its flat index (R132,
R151). -/
def Eng.weights (pn : Nat) (d : Desc) (p c ver : Nat) : Eng (List (Nat × Nat)) := do
  let live ← Eng.live pn d p c ver
  live.mapM fun e => do
    let w ← Eng.num pn (d.record e.2.rid) 4
    pure (w, e.1)

/-- The drop key of an FP32 weight: 0 for a NaN, else one more than its magnitude's bits (R149). -/
def dropOf (w : Nat) : Nat := if 0x7F800000 < w % 2 ^ 31 then 0 else w % 2 ^ 31 + 1

/-- The keys of a list, each with its flat index, of which one is sooner dropped than another, or better regrown (R149). -/
def sooner (a b : Nat × Nat) : Prop := a.1 < b.1 ∨ (a.1 = b.1 ∧ a.2 < b.2)
def better (a b : Nat × Nat) : Prop := b.1 < a.1 ∨ (a.1 = b.1 ∧ a.2 < b.2)

/-- How many of a list a test accepts. -/
def countOf {α : Type} (l : List α) (p : α → Bool) : Nat := (l.filter p).length

/-- The request of a slot has gone, with a record of kind 5, where its task lives: status, request number, version, the
count of what it dropped or counted, what it regrew, and what it lacked (R40, R328). -/
def State.MaskDone (s t : State) (r : MaskReq) (status ver count regrown short : Nat) : Prop :=
  (∀ x ∈ t.masks, ¬ (x.slot = r.slot ∧ x.id = r.id)) ∧
    (r.orphan = false → s.Posted t r.slot 0 2 (5 + status * 256) ∧ s.Posted t r.slot 4 4 r.id ∧
      s.Posted t r.slot 8 4 ver ∧ s.Posted t r.slot 16 4 count ∧ s.Posted t r.slot 20 4 regrown ∧
      s.Posted t r.slot 24 4 short)

/-- Registers, pc, level and bindings of every slot stand; only CHKINT bits, STALLS, counters, logs and flights may
differ. -/
def SameRegs (s t : State) : Prop :=
  ∀ k, (t.slot k).regs = (s.slot k).regs ∧ (t.slot k).pc = (s.slot k).pc ∧ (t.slot k).trap = (s.slot k).trap ∧
    (t.slot k).loops = (s.slot k).loops ∧ (t.slot k).status = (s.slot k).status ∧ (t.slot k).task = (s.slot k).task ∧
    (t.slot k).sys.coord = (s.slot k).sys.coord ∧ (t.slot k).sys.fpflags = (s.slot k).sys.fpflags

end Sys2Proof.Machine
end

