-- ==== Sys2Proof/WellFormed.lean ====
section
/-! DEFINITION. Which terms of the syntax stand for something the W2 has: syllables that an encoding spells, and events
whose operands name an object of the wafer. -/

namespace Sys2Proof

/-- The quad-lanes bit is set only with class RAW (R252). -/
def quadAllowed (q : Bool) (cls : BitVec 2) : Bool := !q || cls == 3

/-- One of the wafer's 161,280 cores (R18). -/
def coreOk (core : Nat) : Bool := decide (core < 161280)

/-- One of the four slots of a core. -/
def slotOk (slot : Nat) : Bool := decide (slot < 645120)

/-- A sequence of a log, 44 bits (R74). -/
def seqOk (seq : Nat) : Bool := decide (seq < 2 ^ 44)

/-- A copy or request number, 32 bits without 0 (R286, R327). -/
def idOk (id : Nat) : Bool := decide (0 < id ∧ id < 2 ^ 32)

/-- The term is a syllable of bundles, not an event. -/
def Instr.isSyllable (i : Instr) : Bool := (opcode i).isSome

/-- A well-formed instruction or event: a no-op major is one of R185's, a type code is one that the instruction has, the
quad-lanes bit stands with class RAW (R252), and an event names a slot, core or column of the wafer and carries what
its agent can bring. -/
def Instr.wellFormed : Instr → Bool
  | .cnop => true
  | .li _ _ => true
  | .lix _ _ => true
  | .lixHi _ _ => true
  | .addi _ _ _ => true
  | .movpToScalar _ _ => true
  | .movpToPred _ _ => true
  | .movpAnd _ _ _ => true
  | .movpOr _ _ _ => true
  | .movpXor _ _ _ => true
  | .movpNot _ _ => true
  | .getsr _ _ => true
  | .setsr _ _ => true
  | .inboxWrite slot _ => slotOk slot
  | .bankkeyWrite _ _ => true
  | .br _ => true
  | .brp _ _ _ => true
  | .call _ => true
  | .jr _ _ _ => true
  | .loop _ _ => true
  | .yield => true
  | .fuse _ _ => true
  | .split => true
  | .tend => true
  | .ld _ _ _ _ _ => true
  | .ldx _ _ _ _ _ _ => true
  | .st _ _ _ _ => true
  | .stx _ _ _ _ _ => true
  | .vld _ _ _ _ => true
  | .vst _ _ _ _ => true
  | .vlds _ _ _ q cls => quadAllowed q cls
  | .vsts _ _ _ q cls => quadAllowed q cls
  | .vgath _ _ _ q cls => quadAllowed q cls
  | .vscat _ _ _ q cls => quadAllowed q cls
  | .amoAdd _ _ _ _ => true
  | .amoSmin _ _ _ _ => true
  | .amoSmax _ _ _ _ => true
  | .amoUmin _ _ _ _ => true
  | .amoUmax _ _ _ _ => true
  | .amoAnd _ _ _ _ => true
  | .amoOr _ _ _ _ => true
  | .amoXor _ _ _ _ => true
  | .amoSwap _ _ _ _ => true
  | .amoCas _ _ _ _ => true
  | .rel _ => true
  | .relf _ _ => true
  | .acq _ _ => true
  | .acqf _ _ _ => true
  | .acqfReread slot => slotOk slot
  | .acqr _ _ => true
  | .acqrAll => true
  | .fenceCore _ => true
  | .fenceDevice _ => true
  | .fenceSystem _ => true
  | .waitf _ => true
  | .reclaim _ => true
  | .logqStat _ _ => true
  | .logqTail _ => true
  | .logqVoid _ _ => true
  | .logqResend _ _ => true
  | .pref _ _ => true
  | .cpy _ _ => true
  | .cpyq _ _ => true
  | .send _ _ _ _ => true
  | .recv _ => true
  | .poll _ => true
  | .deq _ => true
  | .epn _ => true
  | .epnC _ _ => true
  | .epnL _ => true
  | .chkerr _ => true
  | .bar _ => true
  | .barC _ => true
  | .bargen _ _ => true
  | .barwait _ _ => true
  | .ttload _ _ => true
  | .tsend _ _ => true
  | .flitDeparture core => coreOk core
  | .trecv _ _ => true
  | .commend _ => true
  | .mtrx _ _ _ => true
  | .mq _ _ => true
  | .mpoll _ _ => true
  | .mwait _ => true
  | .accld _ _ t _ => decide (t.toNat ≠ 7)
  | .accst _ _ t _ => decide (t.toNat ≠ 7)
  | .mbind _ _ => true
  | .mver _ _ => true
  | .munbind _ => true
  | .mreset _ => true
  | .mupd _ _ => true
  | .mhist _ _ => true
  | .trap _ => true
  | .gkill _ _ => true
  | .eret => true
  | .sigchk _ => true
  | .tinv _ _ => true
  | .tinvAll => true
  | .cHint maj _ => decide (0x3D ≤ maj.toNat)
  | .add _ _ _ => true
  | .sub _ _ _ => true
  | .mul _ _ _ => true
  | .mulhs _ _ _ => true
  | .mulhu _ _ _ => true
  | .div _ _ _ => true
  | .divu _ _ _ => true
  | .rem _ _ _ => true
  | .remu _ _ _ => true
  | .and _ _ _ => true
  | .or _ _ _ => true
  | .xor _ _ _ => true
  | .andn _ _ _ => true
  | .orn _ _ _ => true
  | .xnor _ _ _ => true
  | .shl _ _ _ => true
  | .shr _ _ _ => true
  | .sra _ _ _ => true
  | .rol _ _ _ => true
  | .smin _ _ _ => true
  | .smax _ _ _ => true
  | .umin _ _ _ => true
  | .umax _ _ _ => true
  | .clz _ _ => true
  | .ctz _ _ => true
  | .popc _ _ => true
  | .brev _ _ => true
  | .bswap _ _ => true
  | .cmpEq _ _ _ => true
  | .cmpNe _ _ _ => true
  | .cmpLt _ _ _ => true
  | .cmpLe _ _ _ => true
  | .cmpLtu _ _ _ => true
  | .cmpLeu _ _ _ => true
  | .sel _ _ _ => true
  | .bfx _ _ _ => true
  | .bfi _ _ _ => true
  | .adda _ _ _ => true
  | .fadd _ _ _ _ _ => true
  | .fsub _ _ _ _ _ => true
  | .fmul _ _ _ _ _ => true
  | .ffma _ _ _ _ _ => true
  | .fdiv _ _ _ _ _ => true
  | .fsqrt _ _ _ _ => true
  | .fmin _ _ _ _ => true
  | .fmax _ _ _ _ => true
  | .fminn _ _ _ _ => true
  | .fmaxn _ _ _ _ => true
  | .fcmpEq _ _ _ _ => true
  | .fcmpNe _ _ _ _ => true
  | .fcmpLt _ _ _ _ => true
  | .fcmpLe _ _ _ _ => true
  | .fcmpUn _ _ _ _ => true
  | .fcmpOrd _ _ _ _ => true
  | .fcvt _ _ _ _ _ => true
  | .fcvtu _ _ _ _ _ => true
  | .fclass _ _ _ => true
  | .fabs _ _ _ => true
  | .fneg _ _ _ => true
  | .fcpsgn _ _ _ _ => true
  | .exp2 _ _ _ => true
  | .log2 _ _ _ => true
  | .sin _ _ _ => true
  | .cos _ _ _ => true
  | .tanh _ _ _ => true
  | .rcp _ _ _ => true
  | .rsq _ _ _ => true
  | .vadd _ _ _ _ _ => true
  | .vsub _ _ _ _ _ => true
  | .vmul _ _ _ _ _ => true
  | .vfma _ _ _ _ _ => true
  | .vmin _ _ _ _ => true
  | .vmax _ _ _ _ => true
  | .vand _ _ _ => true
  | .vor _ _ _ => true
  | .vxor _ _ _ => true
  | .vandn _ _ _ => true
  | .vorn _ _ _ => true
  | .vxnor _ _ _ => true
  | .vshl _ _ _ _ => true
  | .vshr _ _ _ _ => true
  | .vsra _ _ _ _ => true
  | .vrol _ _ _ _ => true
  | .vcmpEq _ _ _ _ => true
  | .vcmpNe _ _ _ _ => true
  | .vcmpLt _ _ _ _ => true
  | .vcmpLe _ _ _ _ => true
  | .vcmpUnLtu _ _ _ _ => true
  | .vcmpOrdLeu _ _ _ _ => true
  | .vsel _ _ _ _ => true
  | .vcvt _ _ _ _ _ _ => true
  | .vcvtu _ _ _ _ _ _ => true
  | .vexp2 _ _ _ => true
  | .vlog2 _ _ _ => true
  | .vsin _ _ _ => true
  | .vcos _ _ _ => true
  | .vtanh _ _ _ => true
  | .vrcp _ _ _ => true
  | .vrsq _ _ _ => true
  | .vredSum _ _ _ _ => true
  | .vredMin _ _ _ => true
  | .vredMax _ _ _ => true
  | .vshuf _ _ _ _ => true
  | .vbcast _ _ _ => true
  | .vins _ _ _ _ => true
  | .vext _ _ _ _ => true
  | .vrngI32 _ _ _ => true
  | .vrngF32 _ _ _ => true
  | .vdrop _ _ _ _ => true
  | .vquantE4m3 _ _ _ _ => true
  | .vquantE5m2 _ _ _ _ => true
  | .vquantInt8 _ _ _ _ => true
  | .vdeqE4m3 _ _ _ _ => true
  | .vdeqE5m2 _ _ _ _ => true
  | .vdeqInt8 _ _ _ _ => true
  | .vgab _ _ _ => true
  | .vgabr _ _ _ _ => true
  | .vabf _ _ _ _ => true
  | .vabfadd _ _ _ _ => true
  | .vabfx _ _ _ _ _ => true
  | .vexpmax _ _ _ => true
  | .aHint _ => true
  | .strefused slot => slotOk slot
  | .launchMessage _ => true
  | .taskStart slot => slotOk slot
  | .slotWake slot => slotOk slot
  | .watchdogForcedSwitch slot => slotOk slot
  | .fuseTimeout slot => slotOk slot
  | .entryAcceptance slot seq => slotOk slot && seqOk seq
  | .crystallisation slot seq => slotOk slot && seqOk seq
  | .barrier _ _ => true
  | .settleLimit _ _ => true
  | .barrierRelease _ _ _ => true
  | .phaseLimit slot => slotOk slot
  | .flitArrival core _ => coreOk core
  | .trecvWindowClose core _ => coreOk core
  | .dropNotice core => coreOk core
  | .messageDelivery core _ _ => coreOk core
  | .undeliverableNotice core _ => coreOk core
  | .chunkRecord slot id _ => slotOk slot && idOk id
  | .copyCompletion slot id => slotOk slot && idOk id
  | .jobStart lcol => decide (lcol < 20160)
  | .jobCompletion lcol => decide (lcol < 20160)
  | .maskShareCompletion slot id => slotOk slot && idOk id
  | .mhistCompletion slot id => slotOk slot && idOk id
  | .retirementCleaned _ _ _ => true
  | .maskEngineRetry _ _ _ => true
  | .walkRetry slot => slotOk slot
  | .replay core _ => coreOk core
  | .replayPeriod core => coreOk core
  | .receiveParityError data => slotOk data.1
  | .softErrorCorrected => true
  | .uncorrectableError _ => true
  | .vbusParityFailure lcol repeats => decide (lcol < 20160) && decide (1 ≤ repeats ∧ repeats ≤ 3)
  | .cxlMemRead _ _ len => decide (0 < len)
  | .cxlMemWrite _ _ bytes => decide (bytes ≠ [])
  | .registerWrite _ register bytes =>
    decide ((bytes.length = 4 ∨ bytes.length = 8) ∧ register.2 % bytes.length = 0 ∧ register.2 < 0x200000)
  | .ldoor _ _ => true
  | .claim _ => true
  | .release _ => true
  | .handover port target => decide (target ≠ port)
  | .accept _ => true
  | .handoverLapse => true
  | .ownerLinkLoss => true
  | .pcreate _ => true
  | .pdestroy _ => true
  | .pinfo _ => true
  | .fwstage _ _ _ _ => true
  | .pdevmap _ => true
  | .slotreg _ => true
  | .gkillCommand _ => true
  | .pswitchCheckpoint _ => true
  | .pswitchOut _ => true
  | .presume _ => true
  | .pslice _ => true
  | .fwactivate _ => true
  | .telem _ => true
  | .mstat _ => true
  | .mlog _ => true
  | .hmap _ => true
  | .qrec _ => true
  | .sppr _ => true
  | .hppr _ => true
  | .pwrlim _ => true
  | .badcmd _ => true
  | .doeDiscovery _ => true
  | .getcert _ => true
  | .getreport _ _ => true
  | .switchOut _ => true
  | .switchIn _ => true
  | .sliceExpiry _ => true
  | .powerClockStep => true
  | .thermalShutdown => true
  | .moduleReset => true
  | .coreSettled _ _ => true
  | .linkDown _ => true
  | .linkUp _ => true
  | .deviceAccessArrival _ _ bytes => decide (bytes ≠ [] ∧ bytes.length ≤ 4096)

end Sys2Proof
end

