-- ==== Sys2Proof/Certificates/Slice0/Obligations.lean ====
section
/-! DEFINITION. The statements for the provers. -/

open Sys2Proof Sys2Proof.Machine

/-! ## Integers (R195 to R207) -/

/-- R196: the encodings of the arithmetic majors, and their five results as integers wrapped to 64 bits; nothing else
changes. -/
def Obligations.IntegerArithmetic : Prop :=
  (∀ d a b : BitVec 5,
    (∀ fn < 2 ^ 9, decodeA 0x01 (syllable d a b fn) = .ok (.add d a b) ∧
      decodeA 0x02 (syllable d a b fn) = .ok (.sub d a b)) ∧
    ∀ h < 2 ^ 6, decodeA 0x03 (syllable d a b (8 * h)) = .ok (.mul d a b) ∧
      decodeA 0x03 (syllable d a b (8 * h + 1)) = .ok (.mulhs d a b) ∧
      decodeA 0x03 (syllable d a b (8 * h + 2)) = .ok (.mulhu d a b)) ∧
  ∀ (s : State) (d a b : SReg),
    Completes (.add d a b) s (sres 1 d (BitVec.ofNat 64 (((s.rs a).toNat + (s.rs b).toNat) % 2 ^ 64))) ∧
    Completes (.sub d a b) s (sres 1 d (BitVec.ofInt 64 (((s.rs a).toNat : Int) - (s.rs b).toNat))) ∧
    Completes (.mul d a b) s (sres 1 d (BitVec.ofNat 64 ((s.rs a).toNat * (s.rs b).toNat % 2 ^ 64))) ∧
    Completes (.mulhs d a b) s (sres 1 d (BitVec.ofInt 64 ((s.rs a).toInt * (s.rs b).toInt / 2 ^ 64))) ∧
    Completes (.mulhu d a b) s (sres 1 d (BitVec.ofNat 64 ((s.rs a).toNat * (s.rs b).toNat / 2 ^ 64)))

/-- R197: the four divisions, their encodings, and their fixed results for a zero divisor and for the one overflow; no
trap, no flag, latency 1; a remainder is zero or has the sign of the dividend. -/
def Obligations.DivisionResults : Prop :=
  (∀ d a b : BitVec 5,
    decodeA 0x04 (syllable d a b 0) = .ok (.div d a b) ∧ decodeA 0x04 (syllable d a b 1) = .ok (.divu d a b) ∧
    decodeA 0x04 (syllable d a b 2) = .ok (.rem d a b) ∧ decodeA 0x04 (syllable d a b 3) = .ok (.remu d a b)) ∧
  ∀ (s : State) (d a b : SReg),
    (s.rs b = 0 →
      Completes (.div d a b) s (sres 1 d 0xFFFFFFFFFFFFFFFF) ∧ Completes (.rem d a b) s (sres 1 d (s.rs a)) ∧
      Completes (.divu d a b) s (sres 1 d 0xFFFFFFFFFFFFFFFF) ∧ Completes (.remu d a b) s (sres 1 d (s.rs a))) ∧
    ((s.rs a).toInt = -2 ^ 63 → (s.rs b).toInt = -1 →
      Completes (.div d a b) s (sres 1 d (s.rs a)) ∧ Completes (.rem d a b) s (sres 1 d 0)) ∧
    (s.rs b ≠ 0 → ¬ ((s.rs a).toInt = -2 ^ 63 ∧ (s.rs b).toInt = -1) →
      (∃ q : Word, Completes (.div d a b) s (sres 1 d q) ∧ q.toInt = (s.rs a).toInt.tdiv (s.rs b).toInt) ∧
      (∃ r : Word, Completes (.rem d a b) s (sres 1 d r) ∧
        r.toInt = (s.rs a).toInt - (s.rs a).toInt.tdiv (s.rs b).toInt * (s.rs b).toInt ∧
        (r = 0 ∨ (r.toInt < 0 ↔ (s.rs a).toInt < 0)))) ∧
    (s.rs b ≠ 0 →
      (∃ q : Word, Completes (.divu d a b) s (sres 1 d q) ∧ q.toNat = (s.rs a).toNat / (s.rs b).toNat) ∧
      (∃ r : Word, Completes (.remu d a b) s (sres 1 d r) ∧ r.toNat = (s.rs a).toNat % (s.rs b).toNat))

/-- R198: the encodings of logic, shifts, rotation and minimum and maximum, and their results bit by bit and as
integers; only bits 5 to 0 of a shift count matter. -/
def Obligations.LogicShiftMinMax : Prop :=
  (∀ d a b : BitVec 5, ∀ p ∈ ([(0x05, 0, .and d a b), (0x05, 1, .or d a b), (0x05, 2, .xor d a b), (0x05, 3, .andn d a b),
      (0x05, 4, .orn d a b), (0x05, 5, .xnor d a b), (0x06, 0, .shl d a b), (0x06, 1, .shr d a b), (0x06, 2, .sra d a b),
      (0x06, 3, .rol d a b), (0x07, 0, .smin d a b), (0x07, 1, .smax d a b), (0x07, 2, .umin d a b),
      (0x07, 3, .umax d a b)] : List (Nat × Nat × Instr)),
    decodeA p.1 (syllable d a b p.2.1) = .ok p.2.2) ∧
  ∀ (s : State) (d a b : SReg),
    let x := s.rs a
    let y := s.rs b
    let n := y.toNat % 64
    (∃ v, Completes (.and d a b) s (sres 1 d v) ∧ ∀ i < 64, v.getLsbD i = (x.getLsbD i && y.getLsbD i)) ∧
    (∃ v, Completes (.or d a b) s (sres 1 d v) ∧ ∀ i < 64, v.getLsbD i = (x.getLsbD i || y.getLsbD i)) ∧
    (∃ v, Completes (.xor d a b) s (sres 1 d v) ∧ ∀ i < 64, v.getLsbD i = (x.getLsbD i != y.getLsbD i)) ∧
    (∃ v, Completes (.andn d a b) s (sres 1 d v) ∧ ∀ i < 64, v.getLsbD i = (x.getLsbD i && !y.getLsbD i)) ∧
    (∃ v, Completes (.orn d a b) s (sres 1 d v) ∧ ∀ i < 64, v.getLsbD i = (x.getLsbD i || !y.getLsbD i)) ∧
    (∃ v, Completes (.xnor d a b) s (sres 1 d v) ∧ ∀ i < 64, v.getLsbD i = (x.getLsbD i == y.getLsbD i)) ∧
    (∃ v, Completes (.shl d a b) s (sres 1 d v) ∧ ∀ i < 64, v.getLsbD i = (decide (n ≤ i) && x.getLsbD (i - n))) ∧
    (∃ v, Completes (.shr d a b) s (sres 1 d v) ∧ ∀ i < 64, v.getLsbD i = (decide (i + n < 64) && x.getLsbD (i + n))) ∧
    (∃ v, Completes (.sra d a b) s (sres 1 d v) ∧
      ∀ i < 64, v.getLsbD i = if i + n < 64 then x.getLsbD (i + n) else x.getLsbD 63) ∧
    (∃ v, Completes (.rol d a b) s (sres 1 d v) ∧ ∀ i < 64, v.getLsbD ((i + n) % 64) = x.getLsbD i) ∧
    Completes (.smin d a b) s (sres 1 d (BitVec.ofInt 64 (min x.toInt y.toInt))) ∧
    Completes (.smax d a b) s (sres 1 d (BitVec.ofInt 64 (max x.toInt y.toInt))) ∧
    Completes (.umin d a b) s (sres 1 d (BitVec.ofNat 64 (min x.toNat y.toNat))) ∧
    Completes (.umax d a b) s (sres 1 d (BitVec.ofNat 64 (max x.toNat y.toNat)))

/-- R199: the five unary operations and their encodings, each by what its result says of the operand. -/
def Obligations.BitCountsAndReversals : Prop :=
  (∀ d a b : BitVec 5,
    decodeA 0x08 (syllable d a b 0) = .ok (.clz d a) ∧ decodeA 0x08 (syllable d a b 1) = .ok (.ctz d a) ∧
    decodeA 0x08 (syllable d a b 2) = .ok (.popc d a) ∧ decodeA 0x08 (syllable d a b 3) = .ok (.brev d a) ∧
    decodeA 0x08 (syllable d a b 4) = .ok (.bswap d a)) ∧
  ∀ (s : State) (d a : SReg),
    let x := s.rs a
    (∃ n ≤ 64, Completes (.clz d a) s (sres 1 d (BitVec.ofNat 64 n)) ∧ (x = 0 → n = 64) ∧
      (x ≠ 0 → n < 64 ∧ x.getLsbD (63 - n) = true) ∧ ∀ i, 63 - n < i → x.getLsbD i = false) ∧
    (∃ n ≤ 64, Completes (.ctz d a) s (sres 1 d (BitVec.ofNat 64 n)) ∧ (x = 0 → n = 64) ∧
      (x ≠ 0 → n < 64 ∧ x.getLsbD n = true) ∧ ∀ i < n, x.getLsbD i = false) ∧
    Completes (.popc d a) s (sres 1 d (BitVec.ofNat 64 ((List.range 64).filter fun i => x.getLsbD i).length)) ∧
    (∃ v, Completes (.brev d a) s (sres 1 d v) ∧ ∀ i < 64, v.getLsbD i = x.getLsbD (63 - i)) ∧
    (∃ v, Completes (.bswap d a) s (sres 1 d v) ∧
      ∀ i < 8, v.toNat / 2 ^ (8 * i) % 2 ^ 8 = x.toNat / 2 ^ (8 * (7 - i)) % 2 ^ 8)

/-- R200: compares write a predicate from the relation of the operands as signed or unsigned integers. R201 to R203:
SEL by the destination's own value, bitfields by pos, len and sgn of sb, and ADDA within the offset of an address.
R207: moves between scalars and predicates. -/
def Obligations.ComparesSelectsAndFields : Prop :=
  (∀ d a b : BitVec 5, (∀ fn < 2 ^ 9, decodeA 0x0A (syllable d a b fn) = .ok (.sel d a b) ∧
      decodeA 0x0C (syllable d a b fn) = .ok (.adda d a b)) ∧
    decodeA 0x0B (syllable d a b 0) = .ok (.bfx d a b) ∧ decodeA 0x0B (syllable d a b 1) = .ok (.bfi d a b)) ∧
  (∀ (s : State) (d : PReg) (a b : SReg),
    Completes (.cmpEq d a b) s (pres 1 d (decide ((s.rs a).toNat = (s.rs b).toNat))) ∧
    Completes (.cmpNe d a b) s (pres 1 d (!decide ((s.rs a).toNat = (s.rs b).toNat))) ∧
    Completes (.cmpLt d a b) s (pres 1 d (decide ((s.rs a).toInt < (s.rs b).toInt))) ∧
    Completes (.cmpLe d a b) s (pres 1 d (!decide ((s.rs b).toInt < (s.rs a).toInt))) ∧
    Completes (.cmpLtu d a b) s (pres 1 d (decide ((s.rs a).toNat < (s.rs b).toNat))) ∧
    Completes (.cmpLeu d a b) s (pres 1 d (!decide ((s.rs b).toNat < (s.rs a).toNat)))) ∧
  (∀ (s : State) (d a b : SReg),
    let x := s.rs a
    let y := s.rs b
    let pos := y.toNat % 64
    let len := min 64 (y.toNat / 2 ^ 8 % 128)
    let f := x.toNat / 2 ^ pos % 2 ^ len
    (s.rs d ≠ 0 → Completes (.sel d a b) s (sres 1 d x)) ∧ (s.rs d = 0 → Completes (.sel d a b) s (sres 1 d y)) ∧
    (len = 0 → Completes (.bfx d a b) s (sres 1 d 0)) ∧
    (y.getLsbD 16 = false → Completes (.bfx d a b) s (sres 1 d (BitVec.ofNat 64 f))) ∧
    (0 < len → y.getLsbD 16 = true →
      Completes (.bfx d a b) s (sres 1 d (BitVec.ofInt 64 (if f < 2 ^ (len - 1) then (f : Int) else f - 2 ^ len)))) ∧
    (∃ v, Completes (.bfi d a b) s (sres 1 d v) ∧
      ∀ i < 64, v.getLsbD i = if pos ≤ i ∧ i < pos + len then x.getLsbD (i - pos) else (s.rs d).getLsbD i) ∧
    (∃ v, Completes (.adda d a b) s (sres 1 d v) ∧
      v.toNat = x.toNat / 2 ^ 41 * 2 ^ 41 + (x.toNat + y.toNat) % 2 ^ 41)) ∧
  (∀ (s : State),
    (∀ (d : SReg) (a : PReg), Completes (.movpToScalar d a) s (sres 1 d (BitVec.ofNat 64 (s.rp a).toNat))) ∧
    (∀ (d : PReg) (a : SReg), Completes (.movpToPred d a) s (pres 1 d (decide ((s.rs a).toNat ≠ 0)))) ∧
    (∀ d a b : PReg, Completes (.movpAnd d a b) s (pres 1 d (decide (s.rp a = true ∧ s.rp b = true)))) ∧
    (∀ d a b : PReg, Completes (.movpOr d a b) s (pres 1 d (decide (s.rp a = true ∨ s.rp b = true)))) ∧
    (∀ d a b : PReg, Completes (.movpXor d a b) s (pres 1 d (decide (¬ s.rp a = s.rp b)))) ∧
    (∀ d a : PReg, Completes (.movpNot d a) s (pres 1 d (decide (s.rp a = false)))))

/-- R204 to R206, R185, R209: immediates, and what does nothing. -/
def Obligations.ImmediatesAndHints : Prop :=
  (∀ (s : State) (d : SReg) (imm : BitVec 19), Completes (.li d imm) s (sres 1 d (BitVec.ofInt 64 imm.toInt))) ∧
  (∀ (s : State) (d : SReg) (imm : BitVec 50), Completes (.lix d imm) s (sres 1 d (BitVec.ofInt 64 imm.toInt))) ∧
  (∀ (s : State) (d : SReg) (ext : BitVec 32),
    Completes (.lixHi d ext) s (sres 1 d (BitVec.ofNat 64 (ext.toNat * 2 ^ 32 + (s.rs d).toNat % 2 ^ 32)))) ∧
  (∀ (s : State) (d a : SReg) (imm : BitVec 14),
    Completes (.addi d a imm) s (sres 1 d (BitVec.ofInt 64 ((s.rs a).toInt + imm.toInt)))) ∧
  (∀ s : State, exec .cnop s = .next s) ∧
  (∀ (s : State) (maj : BitVec 6) (bits : BitVec 24), exec (.cHint maj bits) s = .next s) ∧
  (∀ (s : State) (bits : BitVec 24), exec (.aHint bits) s = .next s)

/-! ## Registers (R186, R188, R189) -/

/-- R186, R188, R189: s0 reads as zero and p0 as true, every other register as its file holds it; a result lands in
its register and nowhere else, and one for s0 or p0 is discarded; a block's bytes are written in place. R188, R189:
a scalar result of latency m is not seen in the m - 1 issue cycles after its own, and is seen from the m-th on. -/
def Obligations.ResultsLand : Prop :=
  (∀ (s : State),
    s.rs 0 = 0 ∧ s.rp 0 = true ∧
    (∀ r : SReg, r ≠ 0 → s.rs r = s.me.regs.s[r.toNat]) ∧ (∀ r : PReg, r ≠ 0 → s.rp r = s.me.regs.p[r.toNat]) ∧
    (∀ r : VReg, s.rv r = s.me.regs.v[r.toNat]) ∧
    (∀ (r : SReg) (v : Word), r ≠ 0 → (s.land s.cur (.sreg r v)).rs r = v) ∧
    (∀ (r : PReg) (v : Bool), r ≠ 0 → (s.land s.cur (.preg r v)).rp r = v) ∧
    (∀ (r : VReg) (v : Vec), (s.land s.cur (.vreg r v)).rv r = v) ∧
    (∀ (r q : SReg) (v : Word), q ≠ r ∨ r = 0 → (s.land s.cur (.sreg r v)).rs q = s.rs q) ∧
    (∀ (r q : PReg) (v : Bool), q ≠ r ∨ r = 0 → (s.land s.cur (.preg r v)).rp q = s.rp q) ∧
    (∀ (r q : VReg) (v : Vec), q ≠ r → (s.land s.cur (.vreg r v)).rv q = s.rv q) ∧
    (∀ f : BitVec 7, (s.land s.cur (.fpflags f)).me.sys.fpflags = s.me.sys.fpflags ||| f.setWidth 64) ∧
    (∀ n : Nat, (s.land s.cur (.stalls n)).me.sys.stalls = BitVec.ofNat 64 (min (s.me.sys.stalls.toNat + n) (2 ^ 48 - 1))) ∧
    (∀ w : Landing, (∀ n v, w ≠ .sysreg n v) → (∀ who o bs, w ≠ .block who o bs) →
      (s.land s.cur w).mem = s.mem ∧ ∀ k, k ≠ s.cur → (s.land s.cur w).slot k = s.slot k) ∧
    (∀ (who : Option Writer) (o : Nat) (bs : List Byte), Memory.wf s.mem = true → s.isLost (s.ownKey o) = false →
      o + bs.length ≤ 2 ^ 17 → let t := s.land s.cur (.block who o bs)
      SameRegs s t ∧ (∀ i < bs.length, t.mem.read (s.ownKey (o + i)) = bs.getD i 0) ∧
        ∀ k, (∀ i < bs.length, k ≠ s.ownKey (o + i)) → t.mem.read k = s.mem.read k)) ∧
  (∀ (s : State) (m n : Nat) (d : SReg) (v : Word),
    d ≠ 0 → s.me.flight = [{ left := m, what := .sreg d v }] → 1 ≤ m →
      ((s.ticks s.cur n).rs d = if m ≤ n then v else s.rs d) ∧
      (∀ q : SReg, q ≠ d → (s.ticks s.cur n).rs q = s.rs q) ∧ (s.ticks s.cur n).mem = s.mem)

/-! ## Control (R208 to R219) -/

/-- R208, R210 to R212: a taken branch goes to pc + 8 × imm19 and may leave loops; BRP is taken when the deciding
predicate differs from the inversion bit, and else does nothing; CALL writes the link to s31 and leaves no loop. R213:
JR goes to sa + 8 × imm9 and writes the link; a target off 8 bytes raises ALIGN and writes nothing. Outside a gang the
deciding register is the slot's own (R48). R214 to R216: LOOP opens a loop from the next bundle to its last one; a
count of 0 skips the body; an offset of 0 or less and a fifth open loop raise ILLEGAL. -/
def Obligations.BranchesAndLoops : Prop :=
  (∀ (s : State) (imm : BitVec 19),
    let target := BitVec.ofInt 64 (s.me.pc.toInt + 8 * imm.toInt)
    exec (.br imm) s = .next { s with flow := .taken target true } ∧
    (∀ (p : PReg) (inv : Bool), (s.ctlP p = inv → exec (.brp p inv imm) s = .next s) ∧
      (s.ctlP p ≠ inv → exec (.brp p inv imm) s = .next { s with flow := .taken target true })) ∧
    exec (.call imm) s =
      .next { s.inFlight (sres 1 31 (BitVec.ofNat 64 (s.me.pc.toNat + 8))) with flow := .taken target false }) ∧
  (∀ (s : State) (d a : SReg) (imm : BitVec 9),
    let target := BitVec.ofInt 64 ((s.ctlS a).toInt + 8 * imm.toInt)
    (target.toNat % 8 = 0 → exec (.jr d a imm) s =
      .next { s.inFlight (sres 1 d (BitVec.ofNat 64 (s.me.pc.toNat + 8))) with flow := .taken target true }) ∧
    (target.toNat % 8 ≠ 0 → Traps (.jr d a imm) s 0x03 0 target) ∧
    (s.gangless s.cur → s.ctlS a = s.rs a ∧ ∀ p : PReg, s.ctlP p = s.rp p)) ∧
  (∀ (s : State) (d : SReg) (imm : BitVec 19), s.gangless s.cur →
    let last := BitVec.ofInt 64 (s.me.pc.toInt + 8 * imm.toInt)
    (imm.toInt ≤ 0 → Traps (.loop d imm) s 0x01 0 s.ir) ∧
    (0 < imm.toInt → s.rs d = 0 → exec (.loop d imm) s = .next { s with flow := .taken (last + 8) false }) ∧
    (0 < imm.toInt → s.rs d ≠ 0 → 4 ≤ s.me.loops.length → Traps (.loop d imm) s 0x01 0 s.ir) ∧
    (0 < imm.toInt → s.rs d ≠ 0 → s.me.loops.length < 4 → exec (.loop d imm) s =
      .next (s.setSlot s.cur
        { s.me with loops := { start := s.me.pc + 8, last := last, remaining := s.rs d } :: s.me.loops })))

/-- R189, R191, R216: where a bundle that is no jump of ERET goes on: at the target of its branch, at the start of a
loop whose last bundle it is while passes remain, else at the next bundle, the loops it ended closed: one that ends leaves
the loop around it to the same test. A taken BR, BRP or JR pops the loops, from the top, in whose range it lies and its
target does not; a CALL and a skipped LOOP pop none. -/
def Obligations.BundleGoesOn : Prop := ∀ (s : State), s.gangless s.cur →
  (∀ (target : Word) (leaves : Bool), s.flow = .taken target leaves → s.retire.me.pc = target ∧
    (leaves = false ∨ s.me.loops = [] → s.retire.me.loops = s.me.loops)) ∧
  (∀ (target : Word) (l : LoopEntry) (ls : List LoopEntry), s.flow = .taken target true → s.me.loops = l :: ls →
    let inside := fun (a : Word) => l.start.toNat ≤ a.toNat ∧ a.toNat ≤ l.last.toNat
    (inside s.me.pc → ¬ inside target →
      s.retire.me.loops = (s.setSlot s.cur { s.me with loops := ls }).retire.me.loops) ∧
    (¬ inside s.me.pc ∨ inside target → s.retire.me.loops = l :: ls)) ∧
  (∀ (l : LoopEntry) (ls : List LoopEntry), s.flow = .seq → s.me.loops = l :: ls → l.last = s.me.pc → l.remaining = 1 →
    let u := s.setSlot s.cur { s.me with loops := ls }
    s.retire.me.pc = u.retire.me.pc ∧ s.retire.me.loops = u.retire.me.loops) ∧
  (s.flow = .seq → s.me.loops = [] → s.retire.me.pc = s.me.pc + 8 ∧ s.retire.me.loops = []) ∧
  (∀ (l : LoopEntry) (ls : List LoopEntry), s.flow = .seq → s.me.loops = l :: ls → l.last ≠ s.me.pc →
    s.retire.me.pc = s.me.pc + 8 ∧ s.retire.me.loops = l :: ls) ∧
  (∀ (l : LoopEntry) (ls : List LoopEntry), s.flow = .seq → s.me.loops = l :: ls → l.last = s.me.pc → l.remaining ≠ 1 →
    s.retire.me.pc = l.start ∧ s.retire.me.loops = { l with remaining := l.remaining - 1 } :: ls) ∧
  (∀ l : LoopEntry, s.flow = .seq → s.me.loops = [l] → l.last = s.me.pc → l.remaining = 1 →
    s.retire.me.pc = s.me.pc + 8 ∧ s.retire.me.loops = []) ∧
  (∀ (l m : LoopEntry), s.flow = .seq → s.me.loops = [l, m] → l.last = s.me.pc → l.remaining = 1 → m.last = s.me.pc →
    m.remaining ≠ 1 → s.retire.me.pc = m.start ∧ s.retire.me.loops = [{ m with remaining := m.remaining - 1 }])

/-- R217, R218: YIELD is a switch point outside a phase and nothing inside one; SPLIT dissolves the issuer's gang,
whose members get the leader's loops (R216), and is nothing outside one. R47, R218: FUSE raises ILLEGAL in a handler,
in a phase and in a gang that stands; writes 0 where the mask leaves the issuer out and where its time limit has
passed; sleeps with its bundle, for at most 2^16 cycles, while a core of the mask is missing; forms the gang and wakes
the others when all have come; and writes 1 to each member. -/
def Obligations.GangsAndYield : Prop :=
  ((∀ s : State, (s.inPhase = false → exec .yield s = .next { s with flow := .switched }) ∧
      (s.inPhase = true → exec .yield s = .next s)) ∧
    (∀ s : State, (∀ g ∈ s.gangs, s.cur ∉ g.members) → exec .split s = .next s) ∧
    (∀ (s : State) (k : Nat) (ks : List Nat) (g : Gang), s.gangs.find? (fun g => g.members.contains s.cur) = some g →
      g.members = k :: ks →
      ∃ t, exec .split s = .next t ∧ t.gangs = s.gangs.filter (fun x => x != g) ∧ t.mem = s.mem ∧ t.parts = s.parts ∧
        t.cores = s.cores ∧
        ∀ m, t.slot m = if m ∈ g.members then { s.slot m with loops := (s.slot k).loops } else s.slot m)) ∧
  (∀ (s : State) (d a : SReg),
    let m := (s.rs a).toNat % 256
    (s.me.sup = true ∨ s.inPhase = true → Traps (.fuse d a) s 0x01 0 s.ir) ∧
    (s.me.sup = false → s.inPhase = false →
      (s.fused = false → ¬ s.gangless s.cur → Traps (.fuse d a) s 0x01 0 s.ir) ∧
      (s.fused = true → ∃ t, exec (.fuse d a) s = .next t ∧ t.slots = (s.inFlight (sres 1 d 1)).slots ∧
        t.gangs = s.gangs.map fun g => { g with joining := g.joining.filter fun k => k != s.cur }) ∧
      (s.fused = false → s.gangless s.cur →
        (s.me.fuseOut = true → exec (.fuse d a) s =
          .next (s.setSlot s.cur { s.me with fuseOut := false, flight := s.me.flight ++ sres 1 d 0 })) ∧
        (s.me.fuseOut = false → m.testBit (coreNo s.cur) = false → Completes (.fuse d a) s (sres 1 d 0)) ∧
        (s.me.fuseOut = false → m.testBit (coreNo s.cur) = true → s.fusers m = none → exec (.fuse d a) s =
          .next { s.setSlot s.cur { s.me with status := .asleep, cond := .gang m (s.myCore.now + 2 ^ 16) } with
            flow := .held }) ∧
        (∀ ks, s.me.fuseOut = false → m.testBit (coreNo s.cur) = true → s.fusers m = some ks →
          ∃ t, exec (.fuse d a) s = .next t ∧ t.mem = s.mem ∧
            t.gangs = s.gangs ++ [{ members := ks, joining := ks.filter fun k => k != s.cur }] ∧
            t.me = { s.me with flight := s.me.flight ++ sres 1 d 1 } ∧
            ∀ k ∈ ks, k ≠ s.cur → t.slot k = { s.slot k with status := .ready, cond := .none }))))

/-! ## Traps and system registers (R330 to R347) -/

/-- R187, R337 to R339: a trap of a slot at task level lands its results but for blocks, takes back what ran beside an
instruction that slept, saves the cause, the bundle's address and the
operand, raises the level, keeps the signature accumulator and starts it anew, and goes on at the vector; nothing else
of the machine changes. R339, R340: a trap of a slot that already runs a handler, and one of a partition whose TRAPVEC
is not valid, kills the slot's task group: no slot of the partition holds a task of it afterwards. -/
def Obligations.TrapEntryOrKill : Prop :=
  (∀ (s : State) (k : Nat) (pc addr : Word) (code detail : Nat) (pn : Nat) (p : Part),
    let u := (s.landSwitch k).undoRedo k
    (u.slot k).sup = false → u.gangless k → u.partAt (lcolOf k) = some (pn, p) → u.part? pn = some p →
      p.trapvec.getLsbD 0 = true →
      s.takeTrap k pc code detail addr none = u.setSlot k
        { u.slot k with
          trap := { (u.slot k).trap with cause := BitVec.ofNat 64 (detail * 2 ^ 8 + code), pc := pc &&& 0xFFFFFFFFFFFFFFF8,
                                         addr := addr, status := 1 },
          savedSig := (u.slot k).sig, sig := 0xFFFF, wd := 0, status := .ready, cond := .none, redo := none,
          quar := decide (code = 0x0A), pc := p.trapvec &&& 0xFFFFFFFFFFFFFFF8 }) ∧
  (∀ (s : State) (k : Nat) (pc addr : Word) (code detail : Nat) (p : Part)
      (g : Group),
    let u := (s.landSwitch k).undoRedo k
    u.gangless k → u.partAt (lcolOf k) = some ((u.slot k).partNo, p) → u.part? (u.slot k).partNo = some p →
      g ∈ p.groups → g.tgid = (u.slot k).tgid → ((u.slot k).sup = true ∨ p.trapvec.getLsbD 0 = false) →
      ∀ j, let t := (s.takeTrap k pc code detail addr none).slot j
        ¬ (t.status ≠ .free ∧ t.partNo = (u.slot k).partNo ∧ t.tgid = (u.slot k).tgid))

/-- R341, R343: TRAP takes cause 7 with its operand; ERET returns to TRAPPC at task level with the task's signature
accumulator. R330: at task level ERET, TINV, GKILL, and a SETSR of a register with a supervisor field raise PRIV, the
bundle in TRAPADDR. -/
def Obligations.TrapReturnAndPrivilege : Prop :=
  ((∀ (s : State) (a : SReg), Traps (.trap a) s 0x07 0 (s.rs a)) ∧
    (∀ s : State, s.me.sup = true →
      let waits := s.me.flight.any fun f => f.what.isSys
      let u := if waits then s.landSwitch s.cur else s
      s.me.quar = false → exec .eret s = .next { s.setSlot s.cur
        { s.me with pc := u.me.trap.pc, sig := s.me.savedSig, trap := { s.me.trap with status := 0 } } with
        flow := .jumped waits })) ∧
  (∀ s : State, s.me.sup = false →
    Traps .eret s 0x02 0 s.ir ∧ (∀ a b : SReg, Traps (.tinv a b) s 0x02 0 s.ir) ∧ Traps .tinvAll s 0x02 0 s.ir ∧
    (s.inPhase = false → ∀ d a : SReg, Traps (.gkill d a) s 0x02 0 s.ir) ∧
    (∀ d a : SReg, Traps (.logqVoid d a) s 0x02 0 s.ir ∧ Traps (.logqResend d a) s 0x02 0 s.ir) ∧
    ∀ (n : BitVec 14) (a : SReg),
      n ∈ [0x002, 0x009, 0x00B, 0x00C, 0x010, 0x011, 0x012, 0x013, 0x014, 0x015, 0x016, 0x017, 0x020, 0x021, 0x022, 0x023,
        0x025, 0x026, 0x030, 0x032, 0x040, 0x041, 0x042, 0x043] → Traps (.setsr n a) s 0x02 0 s.ir)

/-- R171, R332, R333: GETSR gives each register's value with latency 1, a BLT entry's as the MC measured it where a
district lies in its direction, and raises ILLEGAL at a number outside the directory. R160, R274, R344, R346: CHKERR
gives CHKINT; SIGCHK compares the accumulator, with the A syllable beside it fed in, sets sigmis on a mismatch only, and
starts the accumulator anew. -/
def Obligations.SystemRegisterReads : Prop :=
  (∀ (s : State) (d : SReg),
    (∀ r ∈ ([(0x000, s.me.sys.coord), (0x001, s.me.sys.tgext), (0x002, s.me.sys.slotcfg), (0x003, s.me.sys.fpflags),
        (0x004, s.me.sys.chkint), (0x005, s.me.sys.wincfg), (0x006, s.me.sys.winseed), (0x007, s.me.sys.mxscale),
        (0x008, s.me.sys.geom), (0x009, s.me.sys.inbox), (0x00A, s.me.sys.msglat), (0x00B, s.me.sys.stalls),
        (0x00C, s.me.sys.drophint), (0x010, s.me.sys.prgn[0]), (0x011, s.me.sys.prgn[1]), (0x012, s.me.sys.prgn[2]),
        (0x013, s.me.sys.prgn[3]), (0x014, s.me.sys.prgn[4]), (0x015, s.me.sys.prgn[5]), (0x016, s.me.sys.prgn[6]),
        (0x017, s.me.sys.prgn[7]),
        (0x020, s.me.trap.cause), (0x021, s.me.trap.pc), (0x022, s.me.trap.addr), (0x023, s.me.trap.seq),
        (0x024, s.me.trap.status), (0x025, s.me.trap.scr0), (0x026, s.me.trap.scr1), (0x030, s.myCore.margin),
        (0x031, s.myCore.replays), (0x032, s.myCore.mweight)] : List (BitVec 14 × Word)),
      Completes (.getsr d r.1) s (sres 1 d r.2)) ∧
    (∀ p : Part, s.part? s.myPart = some p →
      Completes (.getsr d 0x040) s (sres 1 d p.trapvec) ∧ Completes (.getsr d 0x041) s (sres 1 d p.bankkeyKept) ∧
      Completes (.getsr d 0x042) s (sres 1 d p.ltbase) ∧ Completes (.getsr d 0x043) s (sres 1 d p.saveest)) ∧
    (∀ n : BitVec 14, 0x100 ≤ n.toNat → n.toNat ≤ 0x15F →
      let i := n.toNat - 0x100
      let district := i / 4
      let neighbour := (i % 4 = 0 ∧ 4 ≤ district) ∨ (i % 4 = 1 ∧ district % 4 ≠ 3) ∨ (i % 4 = 2 ∧ district < 20) ∨
        (i % 4 = 3 ∧ district % 4 ≠ 0)
      ∃ v, Completes (.getsr d n) s (sres 1 d v) ∧ (¬ neighbour → v = 0) ∧
        (neighbour → v.toNat = 2 ^ 32 + (lookup 0 s.mc.blt i).toNat % 2 ^ 32)) ∧
    (∀ n : BitVec 14, 0x160 ≤ n.toNat → n.toNat ≤ 0x177 →
      Completes (.getsr d n) s (sres 1 d (lookup 0 s.mc.timeofs (n.toNat - 0x160) &&& 0xFFFF))) ∧
    Completes (.getsr d 0x050) s (sres 1 d (s.timeOf (coreOf s.cur))) ∧
    (∀ n : BitVec 14, n ∈ [0x00D, 0x00F, 0x018, 0x01F, 0x027, 0x02F, 0x033, 0x044, 0x051, 0x0FF] ∨ 0x178 ≤ n.toNat →
      Traps (.getsr d n) s 0x01 0 s.ir)) ∧
  (∀ s : State,
    (∀ d : SReg, Completes (.chkerr d) s (sres 1 d s.me.sys.chkint)) ∧
    (∀ imm : BitVec 16, feedA s.me.sig s.ir = imm →
      exec (.sigchk imm) s = .next (s.setSlot s.cur { s.me with sig := 0xFFFF })) ∧
    (∀ imm : BitVec 16, feedA s.me.sig s.ir ≠ imm → exec (.sigchk imm) s =
      .next (s.setSlot s.cur { s.me with sig := 0xFFFF, sys := { s.me.sys with chkint := s.me.sys.chkint ||| 4 } })) ∧
    (s.ir.getLsbD 31 = false → feedA s.me.sig s.ir = s.me.sig))

/-- R193, R333: SETSR's write of a task-level register takes effect for the next bundle, that of a register with a
supervisor field three issue cycles on, a context register's after its slot has slept; it sets the writable bits,
clears FPFLAGS bits written as 1, and leaves the rest. -/
def Obligations.SetsrWrites : Prop := ∀ (s : State) (a : SReg),
  (∀ n : BitVec 14, n ∈ [0x000, 0x001, 0x003, 0x004, 0x005, 0x006, 0x007, 0x008, 0x00A, 0x024, 0x031, 0x050] ∨
      (0x100 ≤ n.toNat ∧ n.toNat ≤ 0x177) →
    Completes (.setsr n a) s [{ left := 1, what := .sysreg n.toNat (s.rs a) }]) ∧
  (∀ n : BitVec 14, s.me.sup = true →
    n ∈ [0x002, 0x009, 0x00B, 0x00C, 0x010, 0x011, 0x012, 0x013, 0x014, 0x015, 0x016, 0x017, 0x020, 0x021, 0x022, 0x023,
      0x025, 0x026, 0x030, 0x032, 0x041] →
    Completes (.setsr n a) s [{ left := 3, what := .sysreg n.toNat (s.rs a) }]) ∧
  (∀ n : BitVec 14, s.me.sup = true → n ∈ [0x040, 0x042, 0x043] →
    exec (.setsr n a) s =
      .next { s.inFlight [{ left := 3, what := .sysreg n.toNat (s.rs a) }] with flow := .answered }) ∧
  (∀ n : BitVec 14, n ∈ [0x00D, 0x00F, 0x018, 0x01F, 0x027, 0x02F, 0x033, 0x044, 0x051, 0x0FF] ∨ 0x178 ≤ n.toNat →
    Traps (.setsr n a) s 0x01 0 s.ir) ∧
  (∀ v : Word,
    (s.land s.cur (.sysreg 0x003 v)).me.sys.fpflags = s.me.sys.fpflags &&& ~~~ (v &&& 0x7F) ∧
    (s.land s.cur (.sysreg 0x005 v)).me.sys.wincfg = (s.me.sys.wincfg &&& ~~~ 0xFFFF) ||| (v &&& 0xFFFF) ∧
    (s.land s.cur (.sysreg 0x006 v)).me.sys.winseed = v ∧
    (s.land s.cur (.sysreg 0x021 v)).me.trap.pc = (s.me.trap.pc &&& 7) ||| (v &&& ~~~ 7) ∧
    (s.land s.cur (.sysreg 0x025 v)).me.trap.scr0 = v ∧ (s.land s.cur (.sysreg 0x026 v)).me.trap.scr1 = v ∧
    (s.land s.cur (.sysreg 0x024 v)) = s.setSlot s.cur s.me ∧ (s.land s.cur (.sysreg 0x021 v)).mem = s.mem)

/-! ## Scalar floating point (R100 to R109, R220 to R229) -/

/-- R105: what each rounding mode makes of a magnitude m in units of 2^s, for a value of a sign. R101, R105: a number
that a format represents rounds to itself under every mode, and sets no flag. R221: the result of a narrower type
stands in the low bits of sd, the bits above them zero. R101, R106, R108: a rounding sets OF and NX and gives an infinity
or the largest finite value, by mode and sign, from twice the top binade on, and under RTZ and RNE from the largest finite
value itself and from half a unit above it on; else it sets NX where the delivered value is not the exact one, and UF beside
NX where the value rounded without a bound of the exponent lies below the smallest normal. -/
def Obligations.RoundingOnce : Prop :=
  (∀ (neg : Bool) (m s : Nat),
    let exact := m % 2 ^ s = 0
    (∀ md, exact → roundShift md neg m s = m / 2 ^ s) ∧
    roundShift .rtz neg m s = m / 2 ^ s ∧
    (¬ exact → roundShift .rup neg m s = m / 2 ^ s + (if neg then 0 else 1)) ∧
    (¬ exact → roundShift .rdn neg m s = m / 2 ^ s + (if neg then 1 else 0)) ∧
    (¬ exact → roundShift .rod neg m s % 2 = 1 ∧
      (roundShift .rod neg m s = m / 2 ^ s ∨ roundShift .rod neg m s = m / 2 ^ s + 1)) ∧
    (∀ k : Nat, |(m : ℤ) - roundShift .rne neg m s * 2 ^ s| ≤ |(m : ℤ) - k * 2 ^ s|) ∧
    (∀ k : Nat, |(m : ℤ) - roundShift .rna neg m s * 2 ^ s| ≤ |(m : ℤ) - k * 2 ^ s|) ∧
    (2 * (m % 2 ^ s) = 2 ^ s → roundShift .rne neg m s % 2 = 0 ∧ roundShift .rna neg m s = m / 2 ^ s + 1)) ∧
  (∀ (t : FTy) (md : Mode) (bits : Nat) (neg : Bool) (m : Nat) (e : Int),
    bits < 2 ^ fwidth t → (tyOf t).decode bits = .fin neg m e → (tyOf t).round md neg m e = (bits, 0)) ∧
  (∀ (t : FTy) (md : Mode) (neg : Bool) (m : Nat) (e : Int), m ≠ 0 →
    let f := tyOf t
    let x : ℚ := m * 2 ^ e
    let r := f.round md neg m e
    let inf := (posInf t).toNat
    let sign := if neg then (signOf t).toNat else 0
    let bias : Int := if t = 0 then 1023 else if t = 3 then 15 else 127
    let frac : Int := if t = 0 then 52 else if t = 1 then 23 else if t = 2 then 7 else 10
    let largest : ℚ := (2 - 2 ^ (-frac)) * 2 ^ bias
    let least : ℚ := 2 ^ (1 - bias)
    let inexact := (f.decode r.1).toRat ≠ if neg then -x else x
    (2 ^ (bias + 1) ≤ x → r = (sign + (if md = .rne ∨ md = .rna ∨ (md = .rup ∧ neg = false) ∨ (md = .rdn ∧ neg = true)
      then inf else inf - 1), 20)) ∧
    (largest < x → x < 2 ^ (bias + 1) → md = .rtz → r = (sign + (inf - 1), 16)) ∧
    (largest + 2 ^ (bias - frac - 1) ≤ x → md = .rne → r = (sign + inf, 20)) ∧
    (largest < x → x < largest + 2 ^ (bias - frac - 1) → md = .rne → r = (sign + (inf - 1), 16)) ∧
    (x ≤ largest → (f.decode r.1).isFin = true ∧ r.2.getLsbD 2 = false ∧ (r.2.getLsbD 4 = true ↔ inexact) ∧
      r.2 &&& 0x67 = 0 ∧ (r.2.getLsbD 3 = true → inexact) ∧ (least ≤ x → r.2.getLsbD 3 = false) ∧
      (x < least → md = .rtz → (r.2.getLsbD 3 = true ↔ inexact)) ∧
      (x < least → md = .rne →
        (r.2.getLsbD 3 = true ↔ inexact ∧ x < least - 2 ^ (-bias - frac - 1))))) ∧
  (∀ (s : State) (t : FTy) (d a b : SReg) (rm : Rm) (lat : Nat) (v : Word)
      (fl : BitVec 7),
    (Completes (.fadd t d a b rm) s (fpres lat d v fl) ∨ Completes (.fsub t d a b rm) s (fpres lat d v fl) ∨
      Completes (.fmul t d a b rm) s (fpres lat d v fl) ∨ Completes (.ffma t d a b rm) s (fpres lat d v fl) ∨
      Completes (.fdiv t d a b rm) s (fpres lat d v fl) ∨ Completes (.fsqrt t d a rm) s (fpres lat d v fl)) →
    v.toNat < 2 ^ fwidth t)

/-- R120, R223, R189: FADD, FSUB, FMUL and FFMA complete with latency 6 in F64 and 4 else, and on finite operands with a
nonzero exact result deliver that result rounded once; FDIV and FSQRT complete with latency 20 in F64 and 12 else, and
deliver the quotient of finite nonzero operands, and the root of a positive finite one, rounded once: a number that is no
dyadic one rounds as the odd one between whose neighbours it stands. -/
def Obligations.FloatArithmetic : Prop := ∀ (s : State) (t : FTy) (d a b : SReg) (rm : Rm),
  let lat := if t = 0 then 6 else 4
  let f := tyOf t
  let x := s.val t a
  let y := s.val t b
  let z := s.val t d
  (∃ v fl, Completes (.fadd t d a b rm) s (fpres lat d v fl) ∧
    (x.isFin → y.isFin → x.toRat + y.toRat ≠ 0 → f.RoundsTo (rmOf rm) (x.toRat + y.toRat) (v.toNat, fl))) ∧
  (∃ v fl, Completes (.fsub t d a b rm) s (fpres lat d v fl) ∧
    (x.isFin → y.isFin → x.toRat - y.toRat ≠ 0 → f.RoundsTo (rmOf rm) (x.toRat - y.toRat) (v.toNat, fl))) ∧
  (∃ v fl, Completes (.fmul t d a b rm) s (fpres lat d v fl) ∧
    (x.isFin → y.isFin → x.toRat * y.toRat ≠ 0 → f.RoundsTo (rmOf rm) (x.toRat * y.toRat) (v.toNat, fl))) ∧
  (∃ v fl, Completes (.ffma t d a b rm) s (fpres lat d v fl) ∧
    (x.isFin → y.isFin → z.isFin → x.toRat * y.toRat + z.toRat ≠ 0 →
      f.RoundsTo (rmOf rm) (x.toRat * y.toRat + z.toRat) (v.toNat, fl))) ∧
  (∃ v fl, Completes (.fdiv t d a b rm) s (fpres (if t = 0 then 20 else 12) d v fl) ∧
    (x.isFin → y.isFin → x.toRat ≠ 0 → y.toRat ≠ 0 → f.RoundsNear (rmOf rm) (x.toRat / y.toRat) (v.toNat, fl))) ∧
  (∃ v fl, Completes (.fsqrt t d a rm) s (fpres (if t = 0 then 20 else 12) d v fl) ∧
    (x.isFin → 0 < x.toRat → ∃ (m : Nat) (e : Int), (v.toNat, fl) = f.round (rmOf rm) false m e ∧
      (((m : ℚ) * 2 ^ e) ^ 2 = x.toRat ∨ (m % 2 = 1 ∧ 2 ^ (f.mw + 3) ≤ m ∧
        (((m : ℚ) - 1) * 2 ^ e) ^ 2 < x.toRat ∧ x.toRat < (((m : ℚ) + 1) * 2 ^ e) ^ 2))))

/-- R102, R120, R223: a NaN operand gives the canonical NaN, with NV when one signals; so do the invalid operations, with
NV; an exact zero sum of values that are not zeros of one sign is +0, or −0 under RDN, and a zero product has the product's
sign; a finite nonzero value over zero is a signed infinity with DZ; the root of −0 is −0; and a finite nonzero value over
itself is 1. -/
def Obligations.FloatSpecialOperands : Prop := ∀ (s : State) (t : FTy) (d a b : SReg) (rm : Rm),
  let lat := if t = 0 then 6 else 4
  let long := if t = 0 then 20 else 12
  let x := s.val t a
  let y := s.val t b
  let nv : BitVec 7 := if x.isSig || y.isSig then 1 else 0
  let zero := fun (n : Bool) => if n then signOf t else 0
  let cancels := zero (rmOf rm == .rdn)
  CompletesF (.fdiv t d a b rm) s long d ∧ CompletesF (.fsqrt t d a rm) s long d ∧
  (∀ n k e e', x = .fin n 0 e → y = .fin k 0 e' →
    Completes (.fadd t d a b rm) s (fpres lat d (if n = k then zero n else cancels) 0) ∧
    Completes (.fsub t d a b rm) s (fpres lat d (if n = !k then zero n else cancels) 0)) ∧
  (x.isFin → y.isFin → x.toRat ≠ 0 →
    (x.toRat + y.toRat = 0 → Completes (.fadd t d a b rm) s (fpres lat d cancels 0)) ∧
    (x.toRat - y.toRat = 0 → Completes (.fsub t d a b rm) s (fpres lat d cancels 0)) ∧
    (y.toRat ≠ 0 → (s.val t d).isFin → x.toRat * y.toRat + (s.val t d).toRat = 0 →
      Completes (.ffma t d a b rm) s (fpres lat d cancels 0))) ∧
  (∀ n k m e e', x = .fin n 0 e → y = .fin k m e' → Completes (.fmul t d a b rm) s (fpres lat d (zero (n != k)) 0)) ∧
  (x.isNan || y.isNan →
    Completes (.fadd t d a b rm) s (fpres lat d (quietNaN t) nv) ∧
    Completes (.fsub t d a b rm) s (fpres lat d (quietNaN t) nv) ∧
    Completes (.fmul t d a b rm) s (fpres lat d (quietNaN t) nv) ∧
    Completes (.fdiv t d a b rm) s (fpres long d (quietNaN t) nv) ∧
    Completes (.fmin t d a b) s (fpres 4 d (quietNaN t) nv) ∧ Completes (.fmax t d a b) s (fpres 4 d (quietNaN t) nv)) ∧
  (∀ n k, x = .inf n → y = .inf k → n ≠ k → Completes (.fadd t d a b rm) s (fpres lat d (quietNaN t) 1)) ∧
  (∀ n, x = .inf n → y = .inf n → Completes (.fsub t d a b rm) s (fpres lat d (quietNaN t) 1)) ∧
  (∀ n k e, x = .inf n → y = .fin k 0 e → Completes (.fmul t d a b rm) s (fpres lat d (quietNaN t) 1)) ∧
  (∀ n k, x = .inf n → y = .inf k → Completes (.fdiv t d a b rm) s (fpres long d (quietNaN t) 1)) ∧
  (∀ n k e e', x = .fin n 0 e → y = .fin k 0 e' → Completes (.fdiv t d a b rm) s (fpres long d (quietNaN t) 1)) ∧
  (∀ n m k e e', m ≠ 0 → x = .fin n m e → y = .fin k 0 e' →
    Completes (.fdiv t d a b rm) s (fpres long d (posInf t ||| (if n = k then 0 else signOf t)) 2)) ∧
  (∀ n m e, m ≠ 0 → x = .fin n m e → Completes (.fdiv t d a a rm) s (fpres long d (oneOf t) 0)) ∧
  (∀ n e, x = .fin n 0 e → Completes (.fsqrt t d a rm) s (fpres long d (if n then signOf t else 0) 0)) ∧
  (∀ m e, m ≠ 0 → x = .fin true m e → Completes (.fsqrt t d a rm) s (fpres long d (quietNaN t) 1))

/-- R224: on operands that are no NaN FMIN and FMAX, and FMINN and FMAXN, deliver the lesser and the greater, −0 below
+0, without a flag; FMINN and FMAXN deliver the operand that is a number beside a quiet NaN. R225: FCMP by the order
of the numbers; with a NaN every relation but NE and UN is false, LT and LE setting NV for any NaN, the others for a
signalling one. -/
def Obligations.FloatMinMaxCompare : Prop :=
  (∀ (s : State) (t : FTy) (d a b : SReg),
    let x := s.val t a
    let y := s.val t b
    let lo := fun w : Word => BitVec.ofNat 64 (w.toNat % 2 ^ fwidth t)
    (x.isNan = false → y.isNan = false → x.ext < y.ext →
      Completes (.fmin t d a b) s (fpres 4 d (lo (s.rs a)) 0) ∧ Completes (.fmax t d a b) s (fpres 4 d (lo (s.rs b)) 0) ∧
      Completes (.fminn t d a b) s (fpres 4 d (lo (s.rs a)) 0) ∧ Completes (.fmaxn t d a b) s (fpres 4 d (lo (s.rs b)) 0) ∧
      Completes (.fmin t d b a) s (fpres 4 d (lo (s.rs a)) 0) ∧ Completes (.fmax t d b a) s (fpres 4 d (lo (s.rs b)) 0)) ∧
    (∀ e e', x = .fin true 0 e → y = .fin false 0 e' →
      Completes (.fmin t d a b) s (fpres 4 d (lo (s.rs a)) 0) ∧ Completes (.fmax t d a b) s (fpres 4 d (lo (s.rs b)) 0) ∧
      Completes (.fmin t d b a) s (fpres 4 d (lo (s.rs a)) 0) ∧ Completes (.fmax t d b a) s (fpres 4 d (lo (s.rs b)) 0)) ∧
    (x = .nan false → y.isNan = false →
      Completes (.fminn t d a b) s (fpres 4 d (lo (s.rs b)) 0) ∧ Completes (.fmaxn t d b a) s (fpres 4 d (lo (s.rs b)) 0)) ∧
    (x = .nan true → y.isNan = false →
      Completes (.fminn t d a b) s (fpres 4 d (lo (s.rs b)) 1) ∧ Completes (.fmaxn t d b a) s (fpres 4 d (lo (s.rs b)) 1))) ∧
  (∀ (s : State) (t : FTy) (d : PReg) (a b : SReg),
    let x := s.val t a
    let y := s.val t b
    let nan := x.isNan || y.isNan
    let sig : BitVec 7 := if x.isSig || y.isSig then 1 else 0
    (nan = false →
      Completes (.fcmpEq t d a b) s (pres 4 d (decide (x.ext = y.ext))) ∧
      Completes (.fcmpNe t d a b) s (pres 4 d (decide (x.ext ≠ y.ext))) ∧
      Completes (.fcmpLt t d a b) s (pres 4 d (decide (x.ext < y.ext))) ∧
      Completes (.fcmpLe t d a b) s (pres 4 d (decide (x.ext ≤ y.ext)))) ∧
    (nan = true →
      Completes (.fcmpEq t d a b) s (pres 4 d false ++ fres 4 sig) ∧
      Completes (.fcmpNe t d a b) s (pres 4 d true ++ fres 4 sig) ∧
      Completes (.fcmpLt t d a b) s (pres 4 d false ++ fres 4 1) ∧
      Completes (.fcmpLe t d a b) s (pres 4 d false ++ fres 4 1)) ∧
    Completes (.fcmpUn t d a b) s (pres 4 d nan ++ fres 4 sig) ∧
    Completes (.fcmpOrd t d a b) s (pres 4 d (!nan) ++ fres 4 sig))

/-- R107, R226: conversions complete with latency 4. A float to its own type is unchanged but for a NaN, one to
another type and an integer to a float is rounded once. Between integers a value in the target's range converts exactly and
one outside clamps with SAT; a finite float to an integer rounds toward minus infinity under RDN, clamps with NV outside
the range and sets NX when inexact; NaN gives 0 with NV. -/
def Obligations.FloatConvert : Prop := ∀ (s : State) (t src : VTy) (d a : SReg) (rm : Rm) (u : Bool),
  let i : Instr := if u then .fcvtu t src d a rm else .fcvt t src d a rm
  let w := intWidth t.toNat
  let lo : Int := if u then 0 else -(2 ^ (w - 1))
  let hi : Int := if u then 2 ^ w - 1 else 2 ^ (w - 1) - 1
  CompletesF i s 4 d ∧
  (t.toNat < 4 → src = t → ((fmtOf t.toNat).decode (s.rs a).toNat).isNan = false →
    Completes i s (fpres 4 d (BitVec.ofNat 64 ((s.rs a).toNat % 2 ^ laneWidth t.toNat)) 0)) ∧
  (t.toNat < 4 → src.toNat < 4 → src ≠ t →
    let x := (fmtOf src.toNat).decode (s.rs a).toNat
    x.isFin → x.toRat ≠ 0 → ∃ v fl, Completes i s (fpres 4 d v fl) ∧
      (fmtOf t.toNat).RoundsTo (rmOf rm) x.toRat (v.toNat, fl)) ∧
  (t.toNat < 4 → 4 ≤ src.toNat →
    let n : Int := if u then ((s.rs a).toNat % 2 ^ intWidth src.toNat : Nat)
      else Int.bmod (s.rs a).toNat (2 ^ intWidth src.toNat)
    ∃ v fl, Completes i s (fpres 4 d v fl) ∧ (n ≠ 0 → (fmtOf t.toNat).RoundsTo (rmOf rm) n (v.toNat, fl)) ∧
      (n = 0 → v = 0 ∧ fl = 0)) ∧
  (4 ≤ t.toNat → 4 ≤ src.toNat →
    let n : Int := if u then ((s.rs a).toNat % 2 ^ intWidth src.toNat : Nat)
      else Int.bmod (s.rs a).toNat (2 ^ intWidth src.toNat)
    (lo ≤ n → n ≤ hi → Completes i s (fpres 4 d (BitVec.ofInt 64 n) 0)) ∧
    (n < lo → Completes i s (fpres 4 d (BitVec.ofInt 64 lo) 32)) ∧
    (hi < n → Completes i s (fpres 4 d (BitVec.ofInt 64 hi) 32))) ∧
  (4 ≤ t.toNat → src.toNat < 4 →
    let x := (fmtOf src.toNat).decode (s.rs a).toNat
    (x.isNan → Completes i s (fpres 4 d 0 1)) ∧
    (rm = 3 → x.isFin → lo ≤ ⌊x.toRat⌋ → ⌊x.toRat⌋ ≤ hi →
      Completes i s (fpres 4 d (BitVec.ofInt 64 ⌊x.toRat⌋) (if (⌊x.toRat⌋ : ℚ) = x.toRat then 0 else 16))) ∧
    (rm = 3 → x.isFin → ⌊x.toRat⌋ < lo → Completes i s (fpres 4 d (BitVec.ofInt 64 lo) 1)) ∧
    (rm = 3 → x.isFin → hi < ⌊x.toRat⌋ → Completes i s (fpres 4 d (BitVec.ofInt 64 hi) 1)))

/-- R227, R228: FABS, FNEG and FCPSGN touch the sign bit alone, also of a NaN, and set no flag; FCLASS delivers one bit of
ten, by the kind of its operand: −Inf, negative normal, negative subnormal, −0, +0, positive subnormal, positive normal,
+Inf, signalling NaN, quiet NaN. -/
def Obligations.FloatSignAndClass : Prop := ∀ (s : State) (t : FTy) (d a b : SReg),
  let w := fwidth t
  let x := s.rs a
  let k := (tyOf t).decode x.toNat
  (∃ v, Completes (.fabs t d a) s (sres 4 d v) ∧ v.toNat = x.toNat % 2 ^ (w - 1)) ∧
  (∃ v, Completes (.fneg t d a) s (sres 4 d v) ∧ v.toNat % 2 ^ (w - 1) = x.toNat % 2 ^ (w - 1) ∧
    v.toNat < 2 ^ w ∧ v.getLsbD (w - 1) = !x.getLsbD (w - 1)) ∧
  (∃ v, Completes (.fcpsgn t d a b) s (sres 4 d v) ∧ v.toNat % 2 ^ (w - 1) = x.toNat % 2 ^ (w - 1) ∧
    v.toNat < 2 ^ w ∧ v.getLsbD (w - 1) = (s.rs b).getLsbD (w - 1)) ∧
  (∃ n : Nat, Completes (.fclass t d a) s (sres 4 d (BitVec.ofNat 64 (2 ^ n))) ∧ n < 10 ∧
    (n = 9 ↔ k = .nan false) ∧ (n = 8 ↔ k = .nan true) ∧ (n = 7 ↔ k = .inf false) ∧ (n = 0 ↔ k = .inf true) ∧
    (n ∈ [4, 5, 6] ↔ k.isFin ∧ x.getLsbD (w - 1) = false) ∧ (n ∈ [3, 4] ↔ k.isFin ∧ k.toRat = 0) ∧
    (n ∈ [1, 2] ↔ k.isFin ∧ k.toRat < 0) ∧
    let least : ℚ := 2 ^ (if t = 0 then -1022 else if t = 3 then -14 else -126 : Int)
    (n ∈ [1, 6] ↔ k.isFin ∧ least ≤ |k.toRat|) ∧ (n ∈ [2, 5] ↔ k.isFin ∧ 0 < |k.toRat| ∧ |k.toRat| < least))

/-- R121, R122, R229: the transcendentals complete with latency 20 in F64 and 12 else, and give R122's results at the
zeros, infinities, integers and powers of two of F64 and F32, with the flags it names. A finite result of F64 or F32 is
within R121's bound, in gaps of R9: of the exact result for RCP and RSQ, and for all seven of the evaluation by which the
model stands for the exact result (log 10). A narrower type evaluates in F32 and rounds once under RNE. -/
def Obligations.TranscendentalExactCases : Prop := ∀ (s : State) (t : FTy) (d a : SReg),
  let lat := if t = 0 then 20 else 12
  let x := s.val t a
  let f := tyOf t
  let fits := fun (n : Int) => (if t = 0 then -1074 else -149 : Int) ≤ n ∧ n ≤ (if t = 0 then 1023 else 127 : Int)
  let exact := fun (i : Instr) (r : ℚ) => ∃ v, Completes i s (fpres lat d v 0) ∧ (f.decode v.toNat).isFin ∧
    (f.decode v.toNat).toRat = r
  let fns : List (TFn × Instr) := [(.exp2, .exp2 t d a), (.log2, .log2 t d a), (.sin, .sin t d a), (.cos, .cos t d a),
    (.tanh, .tanh t d a), (.rcp, .rcp t d a), (.rsq, .rsq t d a)]
  let inf := posInf t
  let neg := signOf t
  let nan := quietNaN t
  let one := oneOf t
  (CompletesF (.exp2 t d a) s lat d ∧ CompletesF (.log2 t d a) s lat d ∧ CompletesF (.sin t d a) s lat d ∧
    CompletesF (.cos t d a) s lat d ∧ CompletesF (.tanh t d a) s lat d ∧ CompletesF (.rcp t d a) s lat d ∧
    CompletesF (.rsq t d a) s lat d) ∧
  (t.toNat < 2 → ∀ n e, x = .fin n 0 e →
    Completes (.exp2 t d a) s (fpres lat d one 0) ∧ Completes (.log2 t d a) s (fpres lat d (inf ||| neg) 2) ∧
    Completes (.sin t d a) s (fpres lat d (if n then neg else 0) 0) ∧ Completes (.cos t d a) s (fpres lat d one 0) ∧
    Completes (.tanh t d a) s (fpres lat d (if n then neg else 0) 0) ∧
    Completes (.rcp t d a) s (fpres lat d (if n then inf ||| neg else inf) 2) ∧
    Completes (.rsq t d a) s (fpres lat d (if n then inf ||| neg else inf) 2)) ∧
  (t.toNat < 2 → x = .inf false →
    Completes (.exp2 t d a) s (fpres lat d inf 0) ∧ Completes (.log2 t d a) s (fpres lat d inf 0) ∧
    Completes (.sin t d a) s (fpres lat d nan 1) ∧ Completes (.cos t d a) s (fpres lat d nan 1) ∧
    Completes (.tanh t d a) s (fpres lat d one 0) ∧ Completes (.rcp t d a) s (fpres lat d 0 0) ∧
    Completes (.rsq t d a) s (fpres lat d 0 0)) ∧
  (t.toNat < 2 → x = .inf true →
    Completes (.exp2 t d a) s (fpres lat d 0 0) ∧ Completes (.log2 t d a) s (fpres lat d nan 1) ∧
    Completes (.sin t d a) s (fpres lat d nan 1) ∧ Completes (.cos t d a) s (fpres lat d nan 1) ∧
    Completes (.tanh t d a) s (fpres lat d (one ||| neg) 0) ∧ Completes (.rcp t d a) s (fpres lat d neg 0) ∧
    Completes (.rsq t d a) s (fpres lat d nan 1)) ∧
  (t.toNat < 2 → ∀ m e, m ≠ 0 → x = .fin true m e →
    Completes (.log2 t d a) s (fpres lat d nan 1) ∧ Completes (.rsq t d a) s (fpres lat d nan 1)) ∧
  (t.toNat < 2 → x.isFin →
    (∀ n : Int, x.toRat = n → fits n → exact (.exp2 t d a) (2 ^ n)) ∧
    (∀ n : Int, x.toRat = 2 ^ n → exact (.log2 t d a) n ∧ (fits (-n) → exact (.rcp t d a) (2 ^ (-n)))) ∧
    (∀ n : Int, x.toRat = -2 ^ n → fits (-n) → exact (.rcp t d a) (-2 ^ (-n))) ∧
    (∀ n : Int, x.toRat = 2 ^ (2 * n) → exact (.rsq t d a) (2 ^ (-n)))) ∧
  (t.toNat < 2 → ∀ p ∈ fns, ∀ neg m e, m ≠ 0 → x = .fin neg m e → (p.1 = .log2 ∨ p.1 = .rsq → neg = false) →
    (p.1 = .sin ∨ p.1 = .cos → t = 1 → |x.toRat| ≤ 2 ^ 20) → ∃ v fl, Completes p.2 s (fpres lat d v fl) ∧
      let r := f.decode v.toNat
      let z := p.1.eval neg m e
      let y := (Val.fin z.neg z.m z.e).toRat
      let bound : ℚ := if p.1 = .tanh then 2 else if (p.1 = .sin ∨ p.1 = .cos) ∧ t = 1 then 3 / 2 else 1
      r.isFin → |r.toRat - y| ≤ bound * f.gap y ∧
        (p.1 = .rcp → |r.toRat - 1 / x.toRat| ≤ f.gap (1 / x.toRat)) ∧
        (p.1 = .rsq → max 0 (r.toRat - f.gap y) ^ 2 * x.toRat ≤ 1 ∧ 1 ≤ (r.toRat + f.gap y) ^ 2 * x.toRat)) ∧
  (2 ≤ t.toNat → ∀ p ∈ fns, ∃ v fl, Completes p.2 s (fpres lat d v fl) ∧
    v.toNat = (f.ofVal .rne (fmtF32.decode (p.1.direct 1 (fmtF32.ofVal .rne x).1).1)).1)

/-! ## Vectors (R230 to R251) -/

/-- R189, R230, R231: lane by lane, integer lanes modulo 2^w without flags and float lanes by the scalar operation of the
same name, with latency 6 for F64 arithmetic and 4 else. -/
def Obligations.VectorArithmetic : Prop := ∀ (s : State) (t : VTy) (d a b : VReg) (rm : Rm),
  let lat := if t = 0 then 6 else 4
  let w := laneWidth t.toNat
  let n := 512 / w
  let f := fmtOf t.toNat
  let x := fun j => s.lane w j a
  let y := fun j => s.lane w j b
  let z := fun j => s.lane w j d
  let int := fun (i : Int) => ((i % 2 ^ w).toNat, (0 : BitVec 7))
  let sg := fun (u : Nat) => Int.bmod u (2 ^ w)
  (t.toNat < 4 →
    CompletesV (.vadd t d a b rm) s lat d w n (fun j => f.add (rmOf rm) (x j) (y j)) ∧
    CompletesV (.vsub t d a b rm) s lat d w n (fun j => f.sub (rmOf rm) (x j) (y j)) ∧
    CompletesV (.vmul t d a b rm) s lat d w n (fun j => f.mul (rmOf rm) (x j) (y j)) ∧
    CompletesV (.vfma t d a b rm) s lat d w n (fun j => f.fma (rmOf rm) (x j) (y j) (z j)) ∧
    CompletesV (.vmin t d a b) s 4 d w n (fun j => f.minmax false (x j) (y j)) ∧
    CompletesV (.vmax t d a b) s 4 d w n (fun j => f.minmax true (x j) (y j))) ∧
  (4 ≤ t.toNat →
    CompletesV (.vadd t d a b rm) s lat d w n (fun j => int (x j + y j)) ∧
    CompletesV (.vsub t d a b rm) s lat d w n (fun j => int (x j - y j)) ∧
    CompletesV (.vmul t d a b rm) s lat d w n (fun j => int (x j * y j)) ∧
    CompletesV (.vfma t d a b rm) s lat d w n (fun j => int (x j * y j + z j)) ∧
    CompletesV (.vmin t d a b) s 4 d w n (fun j => int (min (sg (x j)) (sg (y j)))) ∧
    CompletesV (.vmax t d a b) s 4 d w n (fun j => int (max (sg (x j)) (sg (y j)))))

/-- R232, R233: vector logic bit by bit over all 512 bits, and shifts of integer lanes by the count's low bits. -/
def Obligations.VectorLogicShift : Prop := ∀ (s : State) (d a b : VReg),
  let x := s.rv a
  let y := s.rv b
  (∃ v, Completes (.vand d a b) s (vres 4 d v) ∧ ∀ i < 512, v.getLsbD i = (x.getLsbD i && y.getLsbD i)) ∧
  (∃ v, Completes (.vor d a b) s (vres 4 d v) ∧ ∀ i < 512, v.getLsbD i = (x.getLsbD i || y.getLsbD i)) ∧
  (∃ v, Completes (.vxor d a b) s (vres 4 d v) ∧ ∀ i < 512, v.getLsbD i = (x.getLsbD i != y.getLsbD i)) ∧
  (∃ v, Completes (.vandn d a b) s (vres 4 d v) ∧ ∀ i < 512, v.getLsbD i = (x.getLsbD i && !y.getLsbD i)) ∧
  (∃ v, Completes (.vorn d a b) s (vres 4 d v) ∧ ∀ i < 512, v.getLsbD i = (x.getLsbD i || !y.getLsbD i)) ∧
  (∃ v, Completes (.vxnor d a b) s (vres 4 d v) ∧ ∀ i < 512, v.getLsbD i = (x.getLsbD i == y.getLsbD i)) ∧
  ∀ t : BitVec 2,
    let w := 2 ^ (6 - t.toNat)
    let n := 512 / w
    let k := fun j => s.lane w j b % w
    CompletesV (.vshl t d a b) s 4 d w n (fun j => (s.lane w j a * 2 ^ k j % 2 ^ w, 0)) ∧
    CompletesV (.vshr t d a b) s 4 d w n (fun j => (s.lane w j a / 2 ^ k j, 0)) ∧
    CompletesV (.vsra t d a b) s 4 d w n
      (fun j => ((Int.bmod (s.lane w j a) (2 ^ w) / 2 ^ k j % 2 ^ w).toNat, 0)) ∧
    CompletesV (.vrol t d a b) s 4 d w n
      (fun j => ((s.lane w j a * 2 ^ k j + s.lane w j a / 2 ^ (w - k j)) % 2 ^ w, 0))

/-- R234, R235: a true relation fills its lane with ones; VSEL picks va where vd's own lane is not zero. -/
def Obligations.VectorCompareSelect : Prop := ∀ (s : State) (t : VTy) (d a b : VReg),
  let w := laneWidth t.toNat
  let n := 512 / w
  let f := fmtOf t.toNat
  let x := fun j => s.lane w j a
  let y := fun j => s.lane w j b
  let sg := fun (u : Nat) => Int.bmod u (2 ^ w)
  let all := fun (p : Bool) => if p then 2 ^ w - 1 else 0
  (t.toNat < 4 →
    CompletesV (.vcmpEq t d a b) s 4 d w n (fun j => (all (f.cmp .eq (x j) (y j)).1, (f.cmp .eq (x j) (y j)).2)) ∧
    CompletesV (.vcmpNe t d a b) s 4 d w n (fun j => (all (f.cmp .ne (x j) (y j)).1, (f.cmp .ne (x j) (y j)).2)) ∧
    CompletesV (.vcmpLt t d a b) s 4 d w n (fun j => (all (f.cmp .lt (x j) (y j)).1, (f.cmp .lt (x j) (y j)).2)) ∧
    CompletesV (.vcmpLe t d a b) s 4 d w n (fun j => (all (f.cmp .le (x j) (y j)).1, (f.cmp .le (x j) (y j)).2)) ∧
    CompletesV (.vcmpUnLtu t d a b) s 4 d w n (fun j => (all (f.cmp .un (x j) (y j)).1, (f.cmp .un (x j) (y j)).2)) ∧
    CompletesV (.vcmpOrdLeu t d a b) s 4 d w n (fun j => (all (f.cmp .ord (x j) (y j)).1, (f.cmp .ord (x j) (y j)).2))) ∧
  (4 ≤ t.toNat →
    CompletesV (.vcmpEq t d a b) s 4 d w n (fun j => (all (decide (x j = y j)), 0)) ∧
    CompletesV (.vcmpNe t d a b) s 4 d w n (fun j => (all (decide (x j ≠ y j)), 0)) ∧
    CompletesV (.vcmpLt t d a b) s 4 d w n (fun j => (all (decide (sg (x j) < sg (y j))), 0)) ∧
    CompletesV (.vcmpLe t d a b) s 4 d w n (fun j => (all (decide (sg (x j) ≤ sg (y j))), 0)) ∧
    CompletesV (.vcmpUnLtu t d a b) s 4 d w n (fun j => (all (decide (x j < y j)), 0)) ∧
    CompletesV (.vcmpOrdLeu t d a b) s 4 d w n (fun j => (all (decide (x j ≤ y j)), 0))) ∧
  CompletesV (.vsel t d a b) s 4 d w n (fun j => (if s.lane w j d = 0 then y j else x j, 0))

/-- R222, R236, R229, R237: a conversion to as many or fewer lanes takes part p of the source; one to more lanes fills
part p of vd and leaves its other lanes. Each lane of a vector transcendental is the scalar evaluation of its lane,
with latency 20 in F64 and 12 else. -/
def Obligations.VectorConvertTranscend : Prop :=
  (∀ (s : State) (t src : VTy) (q : BitVec 3) (d a : VReg) (rm : Rm) (u : Bool),
    let i : Instr := if u then .vcvtu t src q d a rm else .vcvt t src q d a rm
    let lat := if t = 0 ∨ src = 0 then 6 else 4
    let wt := laneWidth t.toNat
    let ws := laneWidth src.toNat
    let nt := 512 / wt
    let ns := 512 / ws
    let cv := fun x => convert (rmOf rm) u t.toNat src.toNat x
    (nt ≤ ns → let p := q.toNat % (ns / nt)
      CompletesV i s lat d wt nt (fun j => cv (s.lane ws (p * nt + j) a))) ∧
    (ns < nt → let p := q.toNat % (nt / ns)
      CompletesV i s lat d wt nt (fun j =>
        if p * ns ≤ j ∧ j < p * ns + ns then cv (s.lane ws (j - p * ns) a) else (s.lane wt j d, 0)))) ∧
  (∀ (s : State) (t : FTy) (d a : VReg),
    let lat := if t = 0 then 20 else 12
    let w := fwidth t
    let n := 512 / w
    CompletesV (.vexp2 t d a) s lat d w n (fun j => TFn.exp2.apply t.toNat (s.lane w j a)) ∧
    CompletesV (.vlog2 t d a) s lat d w n (fun j => TFn.log2.apply t.toNat (s.lane w j a)) ∧
    CompletesV (.vsin t d a) s lat d w n (fun j => TFn.sin.apply t.toNat (s.lane w j a)) ∧
    CompletesV (.vcos t d a) s lat d w n (fun j => TFn.cos.apply t.toNat (s.lane w j a)) ∧
    CompletesV (.vtanh t d a) s lat d w n (fun j => TFn.tanh.apply t.toNat (s.lane w j a)) ∧
    CompletesV (.vrcp t d a) s lat d w n (fun j => TFn.rcp.apply t.toNat (s.lane w j a)) ∧
    CompletesV (.vrsq t d a) s lat d w n (fun j => TFn.rsq.apply t.toNat (s.lane w j a)))

/-- R221, R238: a reduction puts its value in lane 0 and zeros above; integers sum modulo 2^w and take the signed least
and greatest; floats of every type sum, or take FMIN or FMAX, by the pairwise tree, a flag set where a node of it sets
it. R248: VEXPMAX gives the greatest binary exponent of the finite nonzero lanes, or −32,768 where there is none. -/
def Obligations.VectorReductions : Prop :=
  (∀ (s : State) (t : VTy) (d a : VReg) (rm : Rm),
    let w := laneWidth t.toNat
    let n := 512 / w
    let x := fun j => s.lane w j a
    let sg := fun j => Int.bmod (x j) (2 ^ w)
    let tree := fun (op : Nat → Nat → Nat × BitVec 7) (v : Vec) (fl : BitVec 7) => ∃ z : Nat → Nat → Nat,
      (∀ j < n, z 0 j = x j) ∧ (∀ k j, z (k + 1) j = (op (z k (2 * j)) (z k (2 * j + 1))).1) ∧
      lane w 0 v = z (Nat.log 2 n) 0 % 2 ^ w ∧ ∀ b < 7, fl.getLsbD b = true ↔
        ∃ k < Nat.log 2 n, ∃ j < n / 2 ^ (k + 1), (op (z k (2 * j)) (z k (2 * j + 1))).2.getLsbD b = true
    (∃ v fl, Completes (.vredSum t d a rm) s (vres 8 d v ++ fres 8 fl) ∧ (∀ j < n, 0 < j → lane w j v = 0) ∧
      (4 ≤ t.toNat → fl = 0 ∧ lane w 0 v = ((List.range n).map x).sum % 2 ^ w) ∧
      (t = 0 → lane w 0 v =
        (fmtF64.add (rmOf rm)
          (fmtF64.add (rmOf rm) (fmtF64.add (rmOf rm) (x 0) (x 1)).1 (fmtF64.add (rmOf rm) (x 2) (x 3)).1).1
          (fmtF64.add (rmOf rm) (fmtF64.add (rmOf rm) (x 4) (x 5)).1 (fmtF64.add (rmOf rm) (x 6) (x 7)).1).1).1 % 2 ^ 64) ∧
      (t.toNat < 4 → tree ((fmtOf t.toNat).add (rmOf rm)) v fl)) ∧
    (∃ v fl, Completes (.vredMin t d a) s (vres 8 d v ++ fres 8 fl) ∧ (∀ j < n, 0 < j → lane w j v = 0) ∧
      (t.toNat < 4 → tree ((fmtOf t.toNat).minmax false) v fl) ∧
      (4 ≤ t.toNat → fl = 0 ∧ (∃ j < n, lane w 0 v = x j) ∧ ∀ j < n, Int.bmod (lane w 0 v) (2 ^ w) ≤ sg j)) ∧
    (∃ v fl, Completes (.vredMax t d a) s (vres 8 d v ++ fres 8 fl) ∧ (∀ j < n, 0 < j → lane w j v = 0) ∧
      (t.toNat < 4 → tree ((fmtOf t.toNat).minmax true) v fl) ∧
      (4 ≤ t.toNat → fl = 0 ∧ (∃ j < n, lane w 0 v = x j) ∧ ∀ j < n, sg j ≤ Int.bmod (lane w 0 v) (2 ^ w)))) ∧
  (∀ (s : State) (t : FTy) (d : SReg) (a : VReg),
    let w := fwidth t
    let x := fun j => ((tyOf t).decode (s.lane w j a))
    let live := fun j => j < 512 / w ∧ (x j).isFin ∧ (x j).toRat ≠ 0
    ((∀ j, ¬ live j) → Completes (.vexpmax t d a) s (sres 4 d (BitVec.ofInt 64 (-32768)))) ∧
    ((∃ j, live j) → ∃ j, live j ∧ Completes (.vexpmax t d a) s (sres 4 d (BitVec.ofInt 64 (Int.log 2 |(x j).toRat|))) ∧
      ∀ k, live k → Int.log 2 |(x k).toRat| ≤ Int.log 2 |(x j).toRat|))

/-- R239, R240: shuffles from va and then vd by the index lanes, broadcasts, and one lane inserted or extracted. -/
def Obligations.VectorMoves : Prop := ∀ (s : State) (t : VTy) (d a b : VReg) (x y : SReg),
  let w := laneWidth t.toNat
  let n := 512 / w
  let k := (s.rs y).toNat % n
  CompletesV (.vshuf t d a b) s 4 d w n (fun j =>
    let i := s.lane w j b % (2 * n)
    (if i < n then s.lane w i a else s.lane w (i - n) d, 0)) ∧
  CompletesV (.vbcast t d x) s 4 d w n (fun _ => ((s.rs x).toNat, 0)) ∧
  CompletesV (.vins t d x y) s 4 d w n (fun j => (if j = k then (s.rs x).toNat else s.lane w j d, 0)) ∧
  ∀ sd : SReg,
    (t.toNat < 4 → Completes (.vext t sd a y) s (sres 4 sd (BitVec.ofNat 64 (s.lane w k a)))) ∧
    (4 ≤ t.toNat → Completes (.vext t sd a y) s (sres 4 sd (BitVec.ofInt 64 (Int.bmod (s.lane w k a) (2 ^ w)))))

/-- R115, R241 to R244: random lanes by element number, as words and as their upper 24 bits over 2^24; dropout gives zero
where the lane's word reaches the threshold K, everywhere when K is 0, and else the lane times 2^32 over K rounded once; a
quantised block has its 32 elements, its scale in byte 32 and zeros above, the scale being the exponent of the largest
finite lane less the format's, clamped, and raised by at most two while a lane does not fit; a dequantised lane is its
element under that scale. R104, R110: the word of an element is the first of ten rounds of Philox4x32; an element's value
times its power of two is rounded once into F32, a NaN, and every element under scale 0xFF, being the canonical NaN. -/
def Obligations.VectorRandomAndMx : Prop := ∀ (s : State) (d a b : VReg) (x y : SReg) (rm : Rm) (h : Bool),
  (∀ (seed sb : Word) (j : Nat), ∃ c : Nat → Nat × Nat × Nat × Nat,
    let i := (sb.toNat % 2 ^ 48 + j) % 2 ^ 48
    let key := (seed.toNat % 2 ^ 32, Nat.xor (seed.toNat / 2 ^ 32) (sb.toNat / 2 ^ 52))
    c 0 = (i % 2 ^ 32, i / 2 ^ 32, sb.toNat / 2 ^ 48 % 2 ^ 4, 0) ∧ rngWord seed sb j = (c 10).1 ∧
    ∀ r, let (w0, w1, w2, w3) := c r
      let p0 := 0xD2511F53 * w0
      let p1 := 0xCD9E8D57 * w2
      c (r + 1) = (Nat.xor (Nat.xor (p1 / 2 ^ 32) w1) ((key.1 + r * 0x9E3779B9) % 2 ^ 32), p1 % 2 ^ 32,
        Nat.xor (Nat.xor (p0 / 2 ^ 32) w3) ((key.2 + r * 0xBB67AE85) % 2 ^ 32), p0 % 2 ^ 32)) ∧
  (∀ (p : Mx) (md : Mode) (scale e : Nat), scale < 2 ^ 8 → e < 2 ^ 8 →
    let el := fun (v : Val) => v = if p = .e4m3 then fmtE4M3.decode e else if p = .e5m2 then fmtE5M2.decode e
      else .fin (decide (128 ≤ e)) (if 128 ≤ e then 256 - e else e) (-6)
    let r := p.widen md scale e
    (scale = 0xFF → r = (0x7FC00000, 0)) ∧
    ∀ v, el v → scale ≠ 0xFF →
      (v.isNan = true → r = (0x7FC00000, 0)) ∧ (∀ n, v = .inf n → r = (if n then 0xFF800000 else 0x7F800000, 0)) ∧
      (∀ n k, v = .fin n 0 k → r = (if n then 0x80000000 else 0, 0)) ∧
      (v.isFin = true → v.toRat ≠ 0 → fmtF32.RoundsTo md (v.toRat * 2 ^ ((scale : Int) - 127)) r)) ∧
  CompletesV (.vrngI32 d x y) s 8 d 32 16 (fun j => (rngWord (s.rs x) (s.rs y) j, 0)) ∧
  (∃ v, Completes (.vrngF32 d x y) s (vres 8 d v) ∧
    ∀ j < 16, (fmtF32.decode (lane 32 j v)).toRat = (rngWord (s.rs x) (s.rs y) j / 256 : Nat) / 2 ^ 24) ∧
  (let k := min ((s.rs x).toNat % 2 ^ 33) (2 ^ 32)
   CompletesV (.vdrop d a x rm) s 8 d 32 16 (fun j =>
     if s.lane 32 j a < k then rescale (rmOf rm) k (s.lane 32 j d) else (0, 0)) ∧
   (∀ j < 16, let z := fmtF32.decode (s.lane 32 j d);
     0 < k → z.isFin → z.toRat ≠ 0 →
       fmtF32.RoundsNear (rmOf rm) (z.toRat * 2 ^ 32 / k) (rescale (rmOf rm) k (s.lane 32 j d)))) ∧
  (let lanes := (List.range 32).map fun j => s.lane 32 (j % 16) (if j < 16 then a else b)
   let vs := lanes.map fmtF32.decode
   let rs := lanes.map fun y => (y, Rnd.mode (rmOf rm))
   ∀ p ∈ ([(.e4m3, .vquantE4m3 d a b rm), (.e5m2, .vquantE5m2 d a b rm), (.int8, .vquantInt8 d a b rm)] :
       List (Mx × Instr)),
     let sc := p.1.scaleOf rs
     let first := fun (top : Int) => max (-127) (min 127 (top - p.1.emax))
     (CompletesV p.2 s 8 d 8 64 (fun j =>
       if j < 32 then p.1.element sc (.mode (rmOf rm)) (vs.getD j (.nan false))
       else if j = 32 then ((sc + 127).toNat, 0) else (0, 0))) ∧
     ((∀ y ∈ vs, y.isFin → y.toRat = 0) → sc = 0) ∧
     (∀ y ∈ vs, y.isFin → y.toRat ≠ 0 → (∀ z ∈ vs, z.isFin → |z.toRat| ≤ |y.toRat|) →
       let lo := first (Int.log 2 |y.toRat|)
       lo ≤ sc ∧ sc ≤ lo + 2 ∧ sc ≤ 127 ∧ (∀ n : Int, lo ≤ n → n < sc → p.1.fits (rmOf rm) n vs = false) ∧
         (sc < lo + 2 → sc < 127 → p.1.fits (rmOf rm) sc vs = true))) ∧
  CompletesV (.vdeqE4m3 d a h rm) s 8 d 32 16 (fun j =>
    Mx.widen .e4m3 (rmOf rm) (s.lane 8 32 a) (s.lane 8 (16 * h.toNat + j) a)) ∧
  CompletesV (.vdeqE5m2 d a h rm) s 8 d 32 16 (fun j =>
    Mx.widen .e5m2 (rmOf rm) (s.lane 8 32 a) (s.lane 8 (16 * h.toNat + j) a)) ∧
  CompletesV (.vdeqInt8 d a h rm) s 8 d 32 16 (fun j =>
    Mx.widen .int8 (rmOf rm) (s.lane 8 32 a) (s.lane 8 (16 * h.toNat + j) a))

/-- R123 to R127, R245 to R251: the block instructions on blocks of the own scratchpad whose regions grant what they read
and write: VGAB has the block in flight that adding its 16 lanes in order makes, VABF a header and a part, VABFADD the
lane-wise sum of two blocks, VGABR and VABFX a vector of rounded lanes; memory stands until they land. A contribution that
adds without a flag adds its exact value to its element and to no other; a GAB element is delivered rounded once; a lane is
packed at the agreed exponent to the nearest integer; sums of lanes wrap. A block that is not the issuer's raises PROT, one
off 8 bytes or across a window's end ALIGN, one that the regions do not grant PROT, in that order and before any effect. That
a line which is read and written counts once among the lines of a stall is log 29 (DEDUCED). -/
def Obligations.BlockInstructions : Prop :=
  (∀ (s : State) (d : VReg) (a b : SReg) (rm : Rm) (t : FTy),
    let va := s.rs a
    let o := va.toNat % 2 ^ 17
    let q := fld 0 2 (s.rs b)
    let g := Gab.read (s.spadBytes o 264)
    let sum := Gab.addAll (Int.bmod ((s.rs b).toNat / 2 ^ 8) (2 ^ 8)) g (16 * q) ((List.range 16).map fun j => s.lane 32 j d)
    let w := fwidth t
    let l := 512 / w
    let p := (s.rs b).toNat / 2 ^ 16 % 4 % (32 / l)
    let ex := Int.bmod (s.rs b).toNat (2 ^ 16)
    let wide := t == 0
    let n := abfLane wide
    let at_ := o + 8 + n * (p * l)
    let packed := (List.range l).map fun j => abfPack wide ex ((tyOf t).decode (s.lane w j d))
    let old := if p = 0 then Abf.mk 1 t.toNat false false false false false ex else Abf.read (s.spadNum o 8)
    let head := packed.foldl (fun h x => h.orFlags x.2.1) old
    let hx := Abf.read (s.spadNum o 8)
    let nx := abfLane (hx.src == 0)
    let px := (s.rs b).toNat % 4 % (32 / l)
    let ax := o + 8 + nx * (px * l)
    let vec := fun (i : Instr) (os : List Nat) (w l : Nat) (f : Nat → Nat × BitVec 7) => ∃ u v fl c, exec i s = .next u ∧
      OnlyInFlight s u ∧ s.stallsFor os c ∧ u.me.flight = s.me.flight ++ stalled c ++ vres 4 d v ++ fres 4 fl ∧
      LanesAre w l f v fl
    let stops := fun (i : Instr) (n : Nat) (may : Prop) =>
      (¬ s.ownAddr va → Traps i s 0x04 0 va) ∧ (s.ownAddr va → ¬ fitsBlock va n → Traps i s 0x03 0 va) ∧
      (s.ownAddr va → fitsBlock va n → ¬ may → Traps i s 0x04 0 va)
    let mayGab := s.me.permits [3, 4] o 264 = true
    let mayGabr := s.me.permits [3] o 8 = true ∧ s.me.permits [3] (o + 8 + 64 * q) 64 = true
    let mayAbf := (p ≠ 0 → s.me.permits [3] o 8 = true) ∧ s.me.permits [4] o 8 = true ∧ s.me.permits [4] at_ (n * l) = true
    let mayAbfx := s.me.permits [3] o 8 = true ∧ s.me.permits [3] ax (nx * l) = true
    stops (.vgab d a b) 264 mayGab ∧ stops (.vgabr d a b rm) 264 mayGabr ∧ stops (.vabf t d a b) (abfSize wide) mayAbf ∧
    stops (.vabfx t d a b rm) (abfSize (hx.src == 0)) mayAbfx ∧
    (s.ownAddr va → fitsBlock va 264 → mayGab → ∃ u c, exec (.vgab d a b) s = .next u ∧ OnlyInFlight s u ∧
      s.stallsFor (List.range' o 264) c ∧ u.me.flight = s.me.flight ++ stalled c ++
        [{ left := 16, what := .block (s.writerOf s.cur) o sum.1.bytes }] ++ fres 16 sum.2) ∧
    (s.ownAddr va → fitsBlock va 264 → mayGabr → vec (.vgabr d a b rm) (List.range' o 8 ++ List.range' (o + 8 + 64 * q) 64)
      32 16 fun j => g.value (rmOf rm) (16 * q + j)) ∧
    (s.ownAddr va → fitsBlock va (abfSize wide) → mayAbf → ∃ u c, exec (.vabf t d a b) s = .next u ∧ OnlyInFlight s u ∧
      s.stallsFor ((if p = 0 then [] else List.range' o 8) ++ List.range' o 8 ++ List.range' at_ (n * l)) c ∧
      ∃ (cells : List Byte) (fl : BitVec 7), u.me.flight = s.me.flight ++ stalled c ++
        [{ left := 4, what := .block (s.writerOf s.cur) o (bytesOf 8 head.num) },
         { left := 4, what := .block (s.writerOf s.cur) at_ cells }] ++ fres 4 fl ∧ cells.length = n * l ∧
        (∀ j < l, Int.bmod (recNat (n * j) n cells) (2 ^ (8 * n)) = Int.bmod (packed.getD j (0, old, 0)).1 (2 ^ (8 * n))) ∧
        ∀ i < 7, fl.getLsbD i = packed.any fun x => x.2.2.getLsbD i) ∧
    (s.ownAddr va → fitsBlock va (abfSize (hx.src == 0)) → mayAbfx → vec (.vabfx t d a b rm)
      (List.range' o 8 ++ List.range' ax (nx * l)) w l fun j => abfExtract (tyOf t) (rmOf rm) hx
        (Int.bmod (s.spadNum (ax + nx * j) nx) (2 ^ (8 * nx))))) ∧
  (∀ (s : State) (d a b : SReg) (narrow : Bool),
    let n := if narrow then 264 else 392
    let off := fun (r : SReg) => (s.rs r).toNat % 2 ^ 17
    let own := fun (r : SReg) => s.ownAddr (s.rs r)
    let fits := fun (r : SReg) => fitsBlock (s.rs r) n
    let may := fun (r : SReg) (bit : Nat) => s.me.permits [bit] (off r) n = true
    let i := Instr.vabfadd narrow d a b
    (¬ own a → Traps i s 0x04 0 (s.rs a)) ∧ (own a → ¬ own b → Traps i s 0x04 0 (s.rs b)) ∧
    (own a → own b → ¬ own d → Traps i s 0x04 0 (s.rs d)) ∧
    (own a → own b → own d →
      (¬ fits a → Traps i s 0x03 0 (s.rs a)) ∧ (fits a → ¬ fits b → Traps i s 0x03 0 (s.rs b)) ∧
      (fits a → fits b → ¬ fits d → Traps i s 0x03 0 (s.rs d)) ∧
      (fits a → fits b → fits d →
        (¬ may a 3 → Traps i s 0x04 0 (s.rs a)) ∧ (may a 3 → ¬ may b 3 → Traps i s 0x04 0 (s.rs b)) ∧
        (may a 3 → may b 3 → ¬ may d 4 → Traps i s 0x04 0 (s.rs d)) ∧
        (may a 3 → may b 3 → may d 4 → ∃ u c, exec i s = .next u ∧ OnlyInFlight s u ∧
          s.stallsFor (List.range' (off a) n ++ List.range' (off b) n ++ List.range' (off d) n) c ∧
          let sum := abfAdd (!narrow) (s.spadBytes (off a) n) (s.spadBytes (off b) n)
          u.me.flight = s.me.flight ++ stalled c ++ [{ left := 4, what := .block (s.writerOf s.cur) (off d) sum }])))) ∧
  (∀ (g : Gab) (i j x : Nat) (l : Int),
    let m := fun (h : Gab) (k : Nat) => (h.m.getD k 0 : ℚ) * 2 ^ (h.bexp - 22 - h.lsx)
    let z := fmtF32.decode x
    0 < g.count → g.count < 2 ^ 32 → g.m.length = 64 → -512 ≤ g.bexp → g.bexp ≤ 511 → i < 64 → z.isFin →
    (∀ k, -(2 ^ 23) ≤ g.m.getD k 0 ∧ g.m.getD k 0 < 2 ^ 23) → (g.add i x l).2 = 0 →
      m (g.add i x l).1 j = m g j + (if j = i then z.toRat * 2 ^ (-l) else 0) ∧
      (g.add i x l).1.count = min (g.count + 1) (2 ^ 32 - 1)) ∧
  (∀ (g : Gab) (md : Mode) (i : Nat), g.count ≠ 0 → g.nan = false → g.pinf = false → g.ninf = false → g.ovf = false →
    g.m.getD i 0 ≠ 0 → fmtF32.RoundsTo md ((g.m.getD i 0 : ℚ) * 2 ^ (g.bexp - 22 - g.lsx)) (g.value md i)) ∧
  (∀ (wide : Bool) (ex : Int) (v : Val), v.isFin → |v.toRat| < 2 ^ (ex + 1) →
    let y := v.toRat * 2 ^ (abfF wide - ex)
    let r := abfPack wide ex v
    |(r.1 : ℚ) - y| ≤ 1 / 2 ∧ (r.2.2 = 0 ↔ (r.1 : ℚ) = y) ∧ r.2.1.nan = false ∧ r.2.1.ovf = false) ∧
  (∀ (wide : Bool) (x y : List Byte) (j : Nat), x.length = abfSize wide → y.length = abfSize wide → j < 32 →
    let z := abfAdd wide x y
    z.length = abfSize wide ∧ abfLaneOf wide z j = Int.bmod (abfLaneOf wide x j + abfLaneOf wide y j) (2 ^ (8 * abfLane wide)) ∧
    (Abf.read (recNat 0 8 z)).count =
      min ((Abf.read (recNat 0 8 x)).count + (Abf.read (recNat 0 8 y)).count) (2 ^ 40 - 1))

/-! ## Loads, stores and atomics (R252 to R263, R270) -/

/-- R252, R257, R272: LD and LDX from the own scratchpad deliver the little-endian bytes with latency 4, extended by
u, count one access, note poison and the cycle that another requester of the bank may cost (R70), and change nothing
else; an address that decodes to nothing and bytes that no region grants raise PROT, a misaligned address ALIGN.
R252, R257, R272: ST and STX into the own scratchpad store the low bytes of sd, least first, at the offset the
address gives, and no other byte of memory changes; in a column that has no place they store nothing (R437); the
same addresses trap as for loads. -/
def Obligations.LocalLoadsAndStores : Prop :=
  (∀ (s : State) (d a b : SReg) (sz : BitVec 2) (u sc : Bool) (imm : BitVec 9),
    let n : Nat := 2 ^ sz.toNat
    ∀ p ∈ [(Instr.ld d a sz u imm, effAddr (s.rs a) (BitVec.ofInt 64 (imm.toInt * n))),
        (Instr.ldx d a b sz u sc, effAddr (s.rs a) (BitVec.ofNat 64 ((s.rs b).toNat * if sc then n else 1)))],
      let va := p.2
      (∀ w o, s.localAt va w o → va.toNat % n = 0 → s.me.permits [3] o n →
        let x := leNat ((List.range n).map fun i => s.ownByte (o + i))
        let v := if u then BitVec.ofNat 64 x else BitVec.ofInt 64 (Int.bmod x (2 ^ (8 * n)))
        let bad := s.anyPoison (s.ownKey o) n
        let done := fun (c : Nat) => s.setSlot s.cur
          { s.me with ordinal := (s.me.ordinal + 1) % 2 ^ 44, flight := s.me.flight ++ stalled c ++ sres 4 d v,
                      sys := { s.me.sys with chkint := if bad then s.me.sys.chkint ||| 2 else s.me.sys.chkint } }
        (s.contested = false → exec p.1 s = .next (done 0)) ∧
        ∃ t c, exec p.1 s = .next t ∧ OnlyInFlight s t ∧ s.stallsFor [o] c ∧ t.me = (done c).me ∧
          (t.core (coreOf s.cur)).now = s.myCore.now + c) ∧
      (s.myTarget va = none → Traps p.1 s 0x04 0 va) ∧
      (∀ x, s.myTarget va = some x → va.toNat % n ≠ 0 → Traps p.1 s 0x03 0 va) ∧
      (∀ w o, s.localAt va w o → va.toNat % n = 0 → s.me.permits [3] o n = false → Traps p.1 s 0x04 0 va)) ∧
  (∀ (s : State) (d a b : SReg) (sz : BitVec 2) (sc : Bool) (imm : BitVec 9),
    Memory.wf s.mem = true →
    let n : Nat := 2 ^ sz.toNat
    ∀ p ∈ [(Instr.st d a sz imm, effAddr (s.rs a) (BitVec.ofInt 64 (imm.toInt * n))),
        (Instr.stx d a b sz sc, effAddr (s.rs a) (BitVec.ofNat 64 ((s.rs b).toNat * if sc then n else 1)))],
      let va := p.2
      (∀ w o, s.localAt va w o → va.toNat % n = 0 → s.me.permits [4] o n →
        ∃ t c, exec p.1 s = .next t ∧ SameRegs s t ∧ t.flow = s.flow ∧ s.stallsFor [o] c ∧
          t.me.flight = s.me.flight ++ stalled c ∧ t.me.ordinal = (s.me.ordinal + 1) % 2 ^ 44 ∧
          (s.isLost (s.ownKey o) = false →
            ∀ i < n, t.mem.read (s.ownKey (o + i)) = BitVec.ofNat 8 ((s.rs d).toNat / 2 ^ (8 * i))) ∧
          (s.isLost (s.ownKey o) = true → t.mem = s.mem) ∧
          (∀ k, (∀ i < n, k ≠ s.ownKey (o + i)) → t.mem.read k = s.mem.read k)) ∧
      (s.myTarget va = none ∨ (∃ x, s.myTarget va = some (.device x)) → Traps p.1 s 0x04 0 va) ∧
      (∀ x, s.myTarget va = some x → (∀ y, x ≠ .device y) → va.toNat % n ≠ 0 → Traps p.1 s 0x03 0 va) ∧
      (∀ w o, s.localAt va w o → va.toNat % n = 0 → s.me.permits [4] o n = false → Traps p.1 s 0x04 0 va))

/-- R42, R81, R192, R255, R257, R433: a shared load that its home grants delivers the issuer's view of the bytes, which
for a slot with an empty log and no view line are those at home, and sleeps until they come back, two cycles on or
later; one of another device and one of a lost column complete so too, their bytes free; what a home or its page refuses
traps; one behind a migrating page sleeps and issues again, and waits where accesses wait for a channel (R444, log 80).
R73, R74, R76, R256: a shared store writes no byte at any home; it takes the next sequence and appends one entry with
its bytes, which leaves the core at cycle 3; a slot whose 16 pans are held and whose last has no room sleeps with its
bundle. -/
def Obligations.SharedLoadsAndStores : Prop :=
  (∀ (s : State) (d a b : SReg) (sz : BitVec 2) (u sc : Bool) (imm : BitVec 9),
    let n : Nat := 2 ^ sz.toNat
    ∀ p ∈ [(Instr.ld d a sz u imm, effAddr (s.rs a) (BitVec.ofInt 64 (imm.toInt * n))),
        (Instr.ldx d a b sz u sc, effAddr (s.rs a) (BitVec.ofNat 64 ((s.rs b).toNat * if sc then n else 1)))],
      ∀ t, s.myTarget p.2 = some t → s.isLocal t = false → p.2.toNat % n = 0 →
        (∀ key fmt rnd w, s.answer p.2 t n .load = .at key fmt rnd w → ∃ v r, exec p.1 s = .next r ∧ r.flow = .answered ∧
          r.me.regs = s.me.regs ∧ r.me.flight = s.me.flight ++ sres 2 d v ∧
          (s.me.log.entries = [] → s.myCore.view = [] → (∀ i < n, s.isLost (key + i) = false) → u →
            v.toNat = leNat ((List.range n).map fun i => s.mem.read (key + i)))) ∧
        (∀ key, s.answer p.2 t n .load = .lost key ∨ s.answer p.2 t n .load = .device → ∃ v r, exec p.1 s = .next r ∧
          r.flow = .answered ∧ r.me.regs = s.me.regs ∧ r.mem = s.mem ∧ r.me.flight = s.me.flight ++ sres 2 d v) ∧
        (∀ code detail, s.answer p.2 t n .load = .trap code detail → exec p.1 s =
          .next { (s.past t).takeTrap s.cur s.me.pc code detail p.2 none with flow := .trapped }) ∧
        (s.answer p.2 t n .load = .stall → exec p.1 s = .next
          ({ s.setSlot s.cur { s.me with status := .asleep, cond := .migration p.2 } with flow := .slept }.enqueue s.cur p.2))) ∧
  (∀ (s : State) (d a b : SReg) (sz : BitVec 2) (sc : Bool) (imm : BitVec 9),
    let n : Nat := 2 ^ sz.toNat
    ∀ p ∈ [(Instr.st d a sz imm, effAddr (s.rs a) (BitVec.ofInt 64 (imm.toInt * n))),
        (Instr.stx d a b sz sc, effAddr (s.rs a) (BitVec.ofNat 64 ((s.rs b).toNat * if sc then n else 1)))],
      ∀ t, s.myTarget p.2 = some t → s.isLocal t = false → p.2.toNat % n = 0 → (∀ x, t ≠ .device x) →
        (s.me.log.entries = [] → s.myCore.view = [] → ∃ r e, exec p.1 s = .next r ∧ r.mem = s.mem ∧ r.journal = s.journal ∧
          r.flow = s.flow ∧ SameRegs s r ∧ r.me.log.entries = [e] ∧ e.state = .appended ∧ r.me.log.seq = e.seq ∧
          e.seq = (s.me.log.seq + 1) % 2 ^ 44 ∧ r.me.flight = s.me.flight ++ [{ left := 3, what := .sent e.seq }] ∧
          e.cells = (List.range n).map fun i =>
            (p.2 + BitVec.ofNat 64 i, BitVec.ofNat 8 ((s.rs d).toNat / 2 ^ (8 * i)))) ∧
        (∀ x xs, s.me.log.entries = x :: xs → x.pan + 15 ≤ s.me.log.pan → 4080 < s.me.log.fill →
          exec p.1 s = .next { s.setSlot s.cur { s.me with status := .asleep, cond := .logRoom } with flow := .held }))

/-- R59, R65, R70, R254 to R258, R260, R261: vector loads whose elements pass the checks and lie in the own scratchpad
deliver one vector with latency 4 and change no memory; a RAW one is its elements' bytes in order, and a lane of a typed
one its element's bytes widened by the code of the window it goes through; with shared elements that their homes grant
the slot sleeps until they come back. What the checks or a home refuse traps; behind a migrating page the load sleeps.
The checks ask rd for the scale byte of an MX element too, and trap with PROT at the element (DEDUCED, log 25). -/
def Obligations.VectorLoads : Prop := ∀ (s : State) (d : VReg) (a b : SReg) (c : VReg) (q : Bool) (cls : BitVec 2)
    (imm : BitVec 9),
  ∀ p ∈ [(Instr.vld d a cls imm, classSize cls, wholeElems (s.rs a) cls imm),
      (Instr.vlds d a b q cls, laneSize q cls, strideElems (s.rs a) (s.rs b) q),
      (Instr.vgath d a c q cls, laneSize q cls, gatherElems (s.rs a) (s.rv c) q)],
    (∀ es, s.checkElems cls p.2.1 .load p.2.2 = .ok es → s.allLocal es = true → ∃ t v c, exec p.1 s = .next t ∧
      OnlyInFlight s t ∧ t.me.flight = s.me.flight ++ stalled c ++ vres 4 d v ∧
      (cls = 3 → s.stallsFor (s.localOffsets es) c ∧
        v = BitVec.ofNat 512 (leNat (((s.localOffsets es).map fun o => s.spadBytes o p.2.1).flatten))) ∧
      (cls ≠ 3 → lcolOf s.cur ∉ s.mc.unplaced → ∀ (j : Nat) (e : Element) (w o : Nat), es[j]? = some e →
        e.tgt = .spad (coreOf s.cur) w o →
        lane 32 j v = widen w (s.spadNum (s.scaleAt e.va) 1) (s.spadNum o p.2.1) % 2 ^ 32)) ∧
    (∀ es as, s.checkElems cls p.2.1 .load p.2.2 = .ok es → s.allLocal es = false →
      s.askElems cls p.2.1 .load es = .all as → ∃ t v c, exec p.1 s = .next t ∧ t.flow = .answered ∧
      t.me.regs = s.me.regs ∧ t.me.flight = s.me.flight ++ stalled c ++ vres 2 d v) ∧
    (∀ es va, s.checkElems cls p.2.1 .load p.2.2 = .ok es → s.askElems cls p.2.1 .load es = .stall va → exec p.1 s =
      .next ({ s.setSlot s.cur { s.me with status := .asleep, cond := .migration va } with flow := .slept }.enqueue s.cur va)) ∧
    (∀ es code detail va, s.checkElems cls p.2.1 .load p.2.2 = .ok es → (∀ e ∈ es, ∀ x, e.tgt ≠ .device x) →
      s.askElems cls p.2.1 .load es = .trap code detail va → Traps p.1 s code detail va) ∧
    (∀ code detail va, s.checkElems cls p.2.1 .load p.2.2 = .error (code, detail, va) → Traps p.1 s code detail va)

/-- R58, R59, R65, R74, R111, R113 to R115, R254, R256, R259 to R262: a vector store whose elements pass the checks
completes, where it has room in the log if it reaches shared memory: byte i of RAW element j is byte i of its share of the
vector, that of a typed one of its lane narrowed by the code and the rounding of its window or page, an MX one under the
scale that the lanes share, whose byte is written beside it. Own elements are in place at once, shared ones join the log as
entries; where lanes meet in a byte the higher one stays; no byte of memory changes but those of own elements and scale
bytes. A typed store asks the pages it meets first: what one refuses traps, and one behind a migrating page sleeps. What
the checks refuse traps; they ask wr for the scale byte of an MX element too, which traps with PROT at the element
(DEDUCED, log 25), and scale bytes are written last (log 68). -/
def Obligations.VectorStores : Prop := ∀ (s : State) (d : VReg) (a b : SReg) (c : VReg) (q : Bool) (cls : BitVec 2)
    (imm : BitVec 9), Memory.wf s.mem = true →
  ∀ p ∈ [(Instr.vst d a cls imm, classSize cls, wholeElems (s.rs a) cls imm),
      (Instr.vsts d a b q cls, laneSize q cls, strideElems (s.rs a) (s.rs b) q),
      (Instr.vscat d a c q cls, laneSize q cls, gatherElems (s.rs a) (s.rv c) q)],
    let n := p.2.1
    let frame := fun (t : State) (es : List Element) (scales : List Nat) =>
      SameRegs s t ∧ (s.allLocal es = true → t.me.log = s.me.log) ∧
      ∀ k, (∀ o ∈ s.localOffsets es, ∀ i < n, k ≠ s.ownKey (o + i)) → (∀ o ∈ scales, k ≠ s.ownKey o) →
        t.mem.read k = s.mem.read k
    (∀ es, s.checkElems cls n .store p.2.2 = .ok es →
      s.allLocal es = true ∨ (s.me.log.entries = [] ∧ s.myCore.view = []) →
      (cls = 3 → ∃ t, exec p.1 s = .next t ∧ frame t es [] ∧ t.flow = s.flow ∧
        s.StoredElems t es n (fun j i => BitVec.ofNat 8 ((s.rv d).toNat / 2 ^ (8 * n * j + 8 * i))) []) ∧
      (∀ as, cls ≠ 3 → lcolOf s.cur ∉ s.mc.unplaced → s.askElems cls n .query es = .all as →
        let code := fun (j : Nat) => ((es.zip as)[j]?.map fun x => (s.codeOf x.1 x.2).1).getD 0
        let rnd := fun (j : Nat) => ((es.zip as)[j]?.map fun x => s.elemRnd x.1.va (s.codeOf x.1 x.2).2).getD (.mode .rne)
        let y := fun (j : Nat) => s.lane 32 j d
        let sc := Mx.e4m3.scaleOf ((List.range es.length).map fun j => (y j, rnd j))
        let made := fun (j : Nat) =>
          if code j = 1 then (y j, (0 : BitVec 7))
          else if code j = 6 then Mx.e4m3.element sc (rnd j) (fmtF32.decode (y j)) else narrow (code j) (rnd j) (y j)
        let scales := ((List.range es.length).filter fun j => code j = 6).map fun j => s.scaleAt (p.2.2.getD j 0)
        ∃ (t : State) (fl : BitVec 7), exec p.1 s = .next t ∧ frame t es scales ∧
          ((∃ e ∈ es, ∀ x w o, e.tgt ≠ .spad x w o) → t.flow = .answered) ∧
          ((∀ e ∈ es, ∃ x w o, e.tgt = .spad x w o) → t.flow = s.flow) ∧
          s.StoredElems t es n (fun j i => BitVec.ofNat 8 ((made j).1 / 2 ^ (8 * i))) scales ∧
          (∀ o ∈ scales, t.mem.read (s.ownKey o) = BitVec.ofNat 8 (sc + 127).toNat) ∧
          (∀ b < 7, fl.getLsbD b = (List.range es.length).any fun j => (made j).2.getLsbD b) ∧
          (∃ fs, t.me.flight = s.me.flight ++ fs ++ fres 1 fl ∧ ∀ f ∈ fs, ∀ g, f.what ≠ .fpflags g) ∧
          ((∃ j < es.length, code j ≠ 1 ∧ ∃ x, rnd j = .sr x) → t.me.stoch = (s.me.stoch + 1) % 2 ^ 32) ∧
          ((∀ j < es.length, code j ≠ 1 → ∃ md, rnd j = .mode md) → t.me.stoch = s.me.stoch))) ∧
    (∀ es, s.checkElems cls n .store p.2.2 = .ok es → cls ≠ 3 →
      (∀ va, s.askElems cls n .query es = .stall va → exec p.1 s =
        .next ({ s.setSlot s.cur { s.me with status := .asleep, cond := .migration va } with flow := .slept }.enqueue s.cur va)) ∧
      ∀ code detail va, s.askElems cls n .query es = .trap code detail va → Traps p.1 s code detail va) ∧
    (∀ code detail va, s.checkElems cls n .store p.2.2 = .error (code, detail, va) → Traps p.1 s code detail va) ∧
    (∀ o, cls = 3 → s.localAt (effAddr (s.rs a) (BitVec.ofInt 64 (imm.toInt * 16))) 0 o → o % 64 = 0 →
      (effAddr (s.rs a) (BitVec.ofInt 64 (imm.toInt * 16))).toNat % 64 = 0 → s.me.permits [4] o 64 →
      (∀ i < 64, s.isLost (s.ownKey (o + i)) = false) →
      ∃ t, exec (.vst d a cls imm) s = .next t ∧
        ∀ i < 64, t.mem.read (s.ownKey (o + i)) = BitVec.ofNat 8 ((s.rv d).toNat / 2 ^ (8 * i)))

/-- R91, R263: the ten atomics, on a word of 4 or 8 bytes of the own scratchpad that the slot may read and write: sd
receives the old word with latency 4, sign-extended from 4 bytes; the word becomes what the operation makes of it; no other
byte changes, and none in a column that has no place (R437). On a shared word that its home grants, with nothing in the
issuer's log, the same at home, and the slot sleeps until the answer comes; what the home refuses traps, and behind a
migrating page the slot sleeps. -/
def Obligations.LocalAtomics : Prop := ∀ (s : State) (d a b : SReg) (q : Bool) (w o : Nat),
  let va := s.rs a
  let n := if q then 8 else 4
  let m := 2 ^ (8 * n)
  let old := leNat ((List.range n).map fun i => s.ownByte (o + i))
  let x := (s.rs b).toNat % m
  let sg := fun y : Nat => Int.bmod y m
  Memory.wf s.mem = true →
  (s.localAt va w o → ∀ p ∈ ([(.amoAdd d a b q, (old + x) % m), (.amoSmin d a b q, if sg old ≤ sg x then old else x),
      (.amoSmax d a b q, if sg old ≤ sg x then x else old), (.amoUmin d a b q, min old x),
      (.amoUmax d a b q, max old x), (.amoAnd d a b q, old &&& x), (.amoOr d a b q, old ||| x),
      (.amoXor d a b q, old ^^^ x), (.amoSwap d a b q, x),
      (.amoCas d a b q, if old = (s.rs d).toNat % m then x else old)] : List (Instr × Nat)),
    (va.toNat % n = 0 → s.me.permits [3, 4] o n → ∃ t v c, exec p.1 s = .next t ∧ SameRegs s t ∧ t.flow = s.flow ∧
      s.stallsFor [o] c ∧ t.me.flight = s.me.flight ++ stalled c ++ sres 4 d v ∧
      ((∀ i < n, s.isLost (s.ownKey (o + i)) = false) → v = (if q then BitVec.ofNat 64 old else BitVec.ofInt 64 (sg old)) ∧
        ∀ i < n, t.mem.read (s.ownKey (o + i)) = BitVec.ofNat 8 (p.2 / 2 ^ (8 * i))) ∧
      (s.isLost (s.ownKey o) = true → t.mem = s.mem) ∧
      (∀ k, (∀ i < n, k ≠ s.ownKey (o + i)) → t.mem.read k = s.mem.read k)) ∧
    (va.toNat % n ≠ 0 → Traps p.1 s 0x03 0 va) ∧
    (va.toNat % n = 0 → s.me.permits [3, 4] o n = false → Traps p.1 s 0x04 0 va)) ∧
  (∀ i ∈ [Instr.amoAdd d a b q, .amoSmin d a b q, .amoSmax d a b q, .amoUmin d a b q, .amoUmax d a b q, .amoAnd d a b q,
      .amoOr d a b q, .amoXor d a b q, .amoSwap d a b q, .amoCas d a b q],
    (s.myTarget va = none → Traps i s 0x04 0 va) ∧
    ∀ x, s.myTarget va = some x → va.toNat % n ≠ 0 → Traps i s 0x03 0 va) ∧
  (∀ t, s.myTarget va = some t → s.isLocal t = false → va.toNat % n = 0 → ∀ p ∈ ([(.amoAdd d a b q, amoAddOf),
      (.amoSmin d a b q, amoSminOf), (.amoSmax d a b q, amoSmaxOf), (.amoUmin d a b q, amoUminOf),
      (.amoUmax d a b q, amoUmaxOf), (.amoAnd d a b q, amoAndOf), (.amoOr d a b q, amoOrOf), (.amoXor d a b q, amoXorOf),
      (.amoSwap d a b q, amoSwapOf), (.amoCas d a b q, amoCasOf)] : List (Instr × AmoFn)),
    (∀ key fmt rnd walk, s.answer va t n .atomic = .at key fmt rnd walk → s.me.log.entries = [] → s.myCore.view = [] →
      (∀ i < n, s.isLost (key + i) = false) → ∃ r, exec p.1 s = .next r ∧ r.flow = .answered ∧ SameRegs s r ∧
        let u := s.usedPage va .atomic walk
        let was := u.mem.num key n
        r.me.flight = s.me.flight ++ sres 2 d (if q then BitVec.ofNat 64 was else BitVec.ofInt 64 (sg was)) ∧
        (∀ i < n, r.mem.read (key + i) =
          BitVec.ofNat 8 (p.2 (8 * n) was ((s.rs b).toNat % m) ((s.rs d).toNat % m) / 2 ^ (8 * i))) ∧
        ∀ k, (∀ i < n, k ≠ key + i) → r.mem.read k = u.mem.read k) ∧
    (∀ key, (s.answer va t n .atomic = .lost key ∧ s.me.log.entries = [] ∧ s.myCore.view = []) ∨
        s.answer va t n .atomic = .device → ∃ v r, exec p.1 s = .next r ∧
      r.flow = .answered ∧ r.me.regs = s.me.regs ∧ r.mem = s.mem ∧ r.me.flight = s.me.flight ++ sres 2 d v) ∧
    (∀ code detail, s.answer va t n .atomic = .trap code detail → exec p.1 s =
      .next { (s.past t).takeTrap s.cur s.me.pc code detail va none with flow := .trapped }) ∧
    (s.answer va t n .atomic = .stall → exec p.1 s =
      .next ({ s.setSlot s.cur { s.me with status := .asleep, cond := .migration va } with flow := .slept }.enqueue s.cur va)))

/-! ## Releases, acquires and fences (R76 to R95, R264 to R269) -/

/-- R82 to R84, R90, R264: with every entry answered REL publishes the last sequence, or the one before the oldest refused
entry, and gives it to sd; one whose home answers first makes the slot sleep until then; an entry that no home will answer
yet makes it sleep, and it publishes nothing. RELF does the same and writes the writer's number and that sequence to the
flag word at its home, whichever memory that is; a flag address off 8 bytes raises ALIGN, one that names nothing here PROT,
and what its home refuses traps, nothing published; of a flag word in a lost column the write alone is given up (R433). -/
def Obligations.ReleasesPublish : Prop := ∀ (s : State) (d a : SReg),
  let va := s.rs a
  let gives := fun (p : Nat) => sres 1 d (BitVec.ofNat 64 p)
  let comes := fun (p : Nat) => sres 2 d (BitVec.ofNat 64 p)
  let published := fun (p : Nat) => s.setSlot s.cur { s.me with pub := p, flight := s.me.flight ++ gives p }
  let sleeps := fun (i : Instr) => ∃ t, exec i s = .next t ∧ t.flow = .slept ∧ t.me.status = .asleep ∧ t.me.cond = .entries ∧
    t.me.regs = s.me.regs ∧ t.me.flight = s.me.flight ∧ t.me.pub = s.me.pub
  ((∀ e ∈ s.me.log.entries, e.unanswered = false ∧ e.isRefused = false) → reached s.me.log.seq s.me.pub = true →
    exec (.rel d) s = .next (published s.me.log.seq)) ∧
  (∀ es r e fs, s.me.log.entries = es ++ e :: fs → (∀ x ∈ es ++ fs, x.unanswered = false) → (∀ x ∈ es, x.isRefused = false) →
    e.state = .refused r → 0 < e.seq → e.seq < 2 ^ 44 → reached (e.seq - 1) s.me.pub = true →
    exec (.rel d) s = .next (published (e.seq - 1))) ∧
  (∀ es e fs, s.me.log.entries = es ++ e :: fs → (∀ x ∈ es ++ fs, x.unanswered = false) → e.unanswered = true →
    (s.answerAll s.cur e.raw e.cells = none → sleeps (.rel d) ∧ ∀ t, exec (.rel d) s = .next t → t.mem = s.mem) ∧
    (∀ keys, s.answerAll s.cur e.raw e.cells = some (.ok keys) → (∀ x ∈ es ++ fs, x.isRefused = false) →
      reached s.me.log.seq s.me.pub = true → ∃ t, exec (.rel d) s = .next t ∧ t.flow = .answered ∧ t.me.regs = s.me.regs ∧
        t.me.pub = s.me.log.seq ∧ t.me.flight = s.me.flight ++ comes s.me.log.seq)) ∧
  (∀ x key fmt rnd walk, s.flagAt va .atomic = .ok x → s.answer va x 8 .atomic = .at key fmt rnd walk →
    (∀ e, s.me.log.entries = [e] → e.unanswered = true → s.answerAll s.cur e.raw e.cells = none → sleeps (.relf d a)) ∧
    (s.me.log.entries = [] → s.myCore.view = [] → s.isLost key = false → Memory.wf s.mem = true →
      reached s.me.log.seq s.me.pub = true → ∃ t, exec (.relf d a) s = .next t ∧ SameRegs s t ∧
        t.flow = (if s.isLocal x then s.flow else .answered) ∧
        t.me.pub = s.me.log.seq ∧ (s.isLocal x = false → t.me.flight = s.me.flight ++ comes s.me.log.seq) ∧
        (∀ w o, x = .spad (coreOf s.cur) w o → ∃ c, s.stallsFor (List.range' o 8) c ∧
          t.me.flight = s.me.flight ++ stalled c ++ gives s.me.log.seq) ∧
        (∀ i < 8, t.mem.read (key + i) =
          BitVec.ofNat 8 ((s.cur % 2 ^ 20 * 2 ^ 44 + s.me.log.seq % 2 ^ 44) / 2 ^ (8 * i))) ∧
        ∀ k, (∀ i < 8, k ≠ key + i) → t.mem.read k = (s.usedPage va .atomic walk).mem.read k)) ∧
  (∀ x key, s.flagAt va .atomic = .ok x → s.answer va x 8 .atomic = .lost key → s.me.log.entries = [] → s.myCore.view = [] →
    reached s.me.log.seq s.me.pub = true → ∃ t, exec (.relf d a) s = .next t ∧ SameRegs s t ∧ t.flow = .answered ∧
      t.mem = s.mem ∧ t.me.pub = s.me.log.seq ∧ t.me.flight = s.me.flight ++ comes s.me.log.seq) ∧
  (s.myTarget va = none ∨ (∃ x, s.myTarget va = some (.device x)) → Traps (.relf d a) s 0x04 0 va) ∧
  (∀ x, s.myTarget va = some x → (∀ y, x ≠ .device y) → va.toNat % 8 ≠ 0 → Traps (.relf d a) s 0x03 0 va) ∧
  (∀ x code detail, s.flagAt va .atomic = .ok x → s.answer va x 8 .atomic = .trap code detail →
    Traps (.relf d a) s code detail va) ∧
  (∀ x, s.flagAt va .atomic = .ok x → s.answer va x 8 .atomic = .stall → exec (.relf d a) s =
    .next ({ s.setSlot s.cur { s.me with status := .asleep, cond := .migration va } with flow := .slept }.enqueue s.cur va))

/-- R80, R85 to R88, R94, R265, R266, R433: ACQ of a writer outside the partition raises PROT, of the issuer itself does
nothing, of a published sequence replays it, records it and sleeps until that is done, of one not yet published sleeps
until it is, and of a writer in a lost column completes with poison. ACQF reads its flag word at home, past log and view,
sleeps while it has not reached q, and else acquires what it names. ACQR.ALL leaves the slot no view line, ACQR none that
overlaps its range; other slots' lines stay, and a range of no bytes drops nothing; where a drop forces an entry home the
slot sleeps until it is there, its lines standing until then. A release cell with an error marks the slot that reads it
(R432). That ACQ's TRAPADDR is the register with the writer id is log 20, and what ACQ of a lost column does is log 34 (both
DEDUCED). -/
def Obligations.AcquiresAndViews : Prop :=
  (∀ (s : State) (d a b : SReg),
    let w := (s.rs a).toNat % 2 ^ 20
    let q := (s.rs b).toNat % 2 ^ 44
    (s.curPart.hasCol (lcolOf w) = false → Traps (.acq a b) s 0x04 0 (s.rs a)) ∧
    (s.curPart.hasCol (lcolOf w) = true → w = s.cur → exec (.acq a b) s = .next s) ∧
    (s.curPart.hasCol (lcolOf w) = true → w ≠ s.cur → s.lost.contains (lcolOf w) = true →
      ∃ t, exec (.acq a b) s = .next t ∧ t.flow = .answered ∧ SameRegs s t ∧ t.mem = s.mem ∧
        t.me.sys.chkint.getLsbD 1 = true) ∧
    (s.curPart.hasCol (lcolOf w) = true → w ≠ s.cur → s.lost.contains (lcolOf w) = false →
      (reached (s.slot w).pub q = true → (s.replay s.cur w q).linesWait (coreOf s.cur) = false →
        ∃ t, exec (.acq a b) s = .next t ∧ t.flow = .answered ∧ SameRegs s t ∧
          t.me.replays.head? = some (w, q) ∧ t.me.replays.length ≤ 16 ∧
          ((s.slot w).pubBad = true → t.me.sys.chkint.getLsbD 1 = true)) ∧
      (reached (s.slot w).pub q = true → (s.replay s.cur w q).linesWait (coreOf s.cur) = true →
        ∃ t, exec (.acq a b) s = .next t ∧ t.flow = .slept ∧ t.me.status = .asleep ∧ t.me.cond = .lines none ∧
          t.me.regs = s.me.regs ∧ t.me.replays = s.me.replays ∧ t.cores = s.cores) ∧
      (reached (s.slot w).pub q = false → exec (.acq a b) s =
        .next { s.setSlot s.cur { s.me with status := .asleep, cond := .published w q } with flow := .slept })) ∧
    (∀ core v o, s.me.redo = none → s.myTarget (s.rs a) = some (.spad core v o) → core ≠ coreOf s.cur →
      core / 8 ∉ s.mc.unplaced → (s.rs a).toNat % 8 = 0 → s.permitsOthers core [5] o 8 = true →
      let key := spadKey core o
      let f := s.mem.num key 8
      let x := f / 2 ^ 44
      let u := s.consume key 8
      let done := ∃ t, exec (.acqf d a b) s = .next t ∧ t.flow = .answered ∧ SameRegs s t ∧
        t.me.flight = s.me.flight ++ sres 2 d (BitVec.ofNat 64 f)
      (f = 0 ∨ reached (f % 2 ^ 44) q = false → exec (.acqf d a b) s = .next
        { s.setSlot s.cur { s.me with status := .asleep, cond := .flagWord key q } with flow := .slept }) ∧
      (f ≠ 0 → reached (f % 2 ^ 44) q = true →
        (s.curPart.hasCol (lcolOf x) = false → Traps (.acqf d a b) s 0x04 0 (s.rs a)) ∧
        (s.curPart.hasCol (lcolOf x) = true → x = s.cur → done) ∧
        (s.curPart.hasCol (lcolOf x) = true → x ≠ s.cur → s.lost.contains (lcolOf x) = false →
          (reached (s.slot x).pub (f % 2 ^ 44) = true →
            (u.replay s.cur x (f % 2 ^ 44)).linesWait (coreOf s.cur) = false → done) ∧
          (reached (s.slot x).pub (f % 2 ^ 44) = false → ∃ t, exec (.acqf d a b) s = .next t ∧ t.flow = .slept ∧
            t.me.status = .asleep ∧ t.me.cond = .published x (f % 2 ^ 44) ∧ t.mem = s.mem))))) ∧
  (∀ (s : State) (a b : SReg),
    let core := coreOf s.cur
    let mine := s.myCore.view.filter fun l => l.slot == slotNo s.cur
    let base := (s.rs a).toNat % 2 ^ 42
    let n := (s.rs b).toNat
    (s.rs b = 0 → exec (.acqr a b) s = .next s) ∧
    (base + n ≤ 2 ^ 42 → ∀ l : ViewLine, l.meets base n = true ↔
      0 < n ∧ ∃ x ∈ l.addresses, base < x + 64 ∧ x < base + n) ∧
    ∀ p ∈ ([(.acqrAll, fun _ => true), (.acqr a b, fun l => l.meets base n)] : List (Instr × (ViewLine → Bool))),
      let ls := mine.filter p.2
      let u := s.dropLines core fun l => l.slot == slotNo s.cur && p.2 l
      ((∃ l ∈ ls, u.dropStalls l = true) → ∃ t, exec p.1 s = .next t ∧ t.flow = .slept ∧ t.me.status = .asleep ∧
        t.me.cond = .lines none ∧ t.me.regs = s.me.regs ∧ t.cores = s.cores) ∧
      ((∀ l ∈ ls, u.dropStalls l = false) → ∃ t, exec p.1 s = .next t ∧ SameRegs s t ∧
        ((∃ l ∈ ls, s.dropForces l = true) → t.flow = .answered) ∧ ((∀ l ∈ ls, s.dropForces l = false) → t.flow = s.flow) ∧
        (∀ k, ∀ e ∈ (s.slot k).log.entries, e.loose = []) →
        (∀ l ∈ (t.core core).view, l ∈ s.myCore.view ∧ (l.slot = slotNo s.cur → p.2 l = false)) ∧
        ∀ l ∈ s.myCore.view, l.slot ≠ slotNo s.cur → l ∈ (t.core core).view))

/-- R93, R267: a fence gives its scope and the slot's access ordinal at once; WAITF of a CORE token, of scope 11 and of one
aged by 2^43 accesses does nothing; else it forces the stores before the fence home, sleeps with its bundle exactly when one
of them is not there, and goes on when all are. R270, R414: PREF changes nothing for a scratchpad or a page that grants it,
and counts a dropped hint where nothing is mapped, the page refuses or the address is another device's; it never traps. -/
def Obligations.FencesWaitsAndHints : Prop :=
  (∀ (s : State) (d a : SReg),
    let ord := s.me.ordinal % 2 ^ 44
    let tok := s.rs a
    let behind := fun (e : Entry) => e.before tok
    let u := s.crystWhere s.cur behind
    let sleeps := ∃ t, exec (.waitf a) s = .next t ∧ t.flow = .held ∧ t.me.status = .asleep ∧ t.me.cond = .fence tok ∧
      t.me.regs = s.me.regs ∧ t.me.flight = s.me.flight
    Completes (.fenceCore d) s (sres 1 d (BitVec.ofNat 64 ord)) ∧
    Completes (.fenceDevice d) s (sres 1 d (BitVec.ofNat 64 (2 ^ 62 + ord))) ∧
    Completes (.fenceSystem d) s (sres 1 d (BitVec.ofNat 64 (2 ^ 63 + ord))) ∧
    (tok.toNat / 2 ^ 62 = 0 ∨ tok.toNat / 2 ^ 62 = 3 ∨ 2 ^ 43 ≤ (s.me.ordinal + 2 ^ 44 - tok.toNat % 2 ^ 44) % 2 ^ 44 →
      exec (.waitf a) s = .next s) ∧
    (s.me.log.entries = [] → ∃ t, exec (.waitf a) s = .next t ∧ t.flow = s.flow ∧ t.mem = s.mem ∧ ∀ k, t.slot k = s.slot k) ∧
    (s.me.tokenAtOnce tok = false →
      ((∃ e ∈ u.me.log.entries, e.before tok = true ∧ e.settled = false) → sleeps) ∧
      ((∀ e ∈ u.me.log.entries, e.before tok = true → e.settled = true) → exec (.waitf a) s = .next u) ∧
      (∀ e, s.me.log.entries = [e] → e.before tok = true →
        (e.unanswered = true → s.answerAll s.cur e.raw e.cells = none → sleeps) ∧ (e.isRefused = true → sleeps) ∧
        (s.canWrite e → Memory.wf s.mem = true → ∃ t, exec (.waitf a) s = .next t ∧ t.flow = s.flow ∧
            SameRegs s t ∧ WrittenHome s t e)))) ∧
  (∀ (s : State) (a : SReg) (imm : BitVec 14),
    let va := effAddr (s.rs a) (BitVec.ofInt 64 imm.toInt)
    let dropped := s.inFlight [{ left := 1, what := .dropped }]
    (s.land s.cur .dropped).me.sys.drophint = BitVec.ofNat 64 (min (s.me.sys.drophint.toNat + 1) (2 ^ 32 - 1)) ∧
    (s.myTarget va = none ∨ (∃ x, s.myTarget va = some (.device x)) → exec (.pref a imm) s = .next dropped) ∧
    (∀ c w o, s.myTarget va = some (.spad c w o) → exec (.pref a imm) s = .next s) ∧
    (s.myTarget va = some .hbm ∨ (∃ l o, s.myTarget va = some (.col l o)) →
      (∀ key leaf lk lv ns, s.host.waiting = [] → s.translate s.myPart s.curPart va .hint = .ok key leaf lk lv ns →
        exec (.pref a imm) s = .next s) ∧
      ((∀ key leaf lk lv ns, s.translate s.myPart s.curPart va .hint ≠ .ok key leaf lk lv ns) →
        exec (.pref a imm) s = .next dropped)))

/-- R79, R268, R269: RECLAIM never sleeps or traps and changes no register; it forces home the entries before its
sequence, at once or when their homes accept them, and no other; LOGQ.TAIL gives the last sequence; LOGQ.STAT
the state of an entry with its reason, RAKED for one that is gone and NONE beyond the counter; VOID and RESEND settle a
refused entry at supervisor level and answer 1 or 2 for another. -/
def Obligations.LogQueries : Prop := ∀ (s : State) (d a : SReg),
  let q := (s.rs a).toNat % 2 ^ 44
  (∃ t, exec (.reclaim a) s = .next t ∧ t.flow = s.flow ∧ SameRegs s t ∧ t.me.flight = s.me.flight ∧
    ((∀ e ∈ s.me.log.entries, e.seq = q ∨ reached q e.seq = false) → t.mem = s.mem) ∧
    ∀ e, s.me.log.entries = [e] → e.seq ≠ q → reached q e.seq = true →
      (e.unanswered = true → s.answerAll s.cur e.raw e.cells = none → t.mem = s.mem ∧
        t.me.log.entries = [{ e with forced := true, state := .sent }]) ∧
      (s.canWrite e → Memory.wf s.mem = true → t.me.log.entries = [] ∧ WrittenHome s t e)) ∧
  Completes (.logqTail d) s (sres 1 d (BitVec.ofNat 64 s.me.log.seq)) ∧
  (s.me.log.entries.find? (fun e => e.seq == q) = none →
    Completes (.logqStat d a) s (sres 1 d (if reached s.me.log.seq q then 5 else 8))) ∧
  (∀ e, s.me.log.entries.find? (fun e => e.seq == q) = some e →
    (e.state = .appended → Completes (.logqStat d a) s (sres 1 d 0)) ∧
    (e.state = .sent → Completes (.logqStat d a) s (sres 1 d 1)) ∧
    (e.state = .accepted → Completes (.logqStat d a) s (sres 1 d (if reached s.me.pub e.seq then 3 else 2))) ∧
    (e.state = .crystallised → Completes (.logqStat d a) s (sres 1 d (if reached s.me.pub e.seq then 4 else 2))) ∧
    (∀ r, e.state = .refused r → Completes (.logqStat d a) s (sres 1 d (BitVec.ofNat 64 (6 + r * 2 ^ 8)))) ∧
    (e.state = .voided → Completes (.logqStat d a) s (sres 1 d 7)) ∧
    (∀ r, s.me.sup = true → e.state = .refused r →
      (∃ t, exec (.logqVoid d a) s = .next t ∧ t.flow = s.flow ∧ SameRegs s t ∧
        t.me.flight = s.me.flight ++ sres 1 d 0 ∧ ∀ x ∈ t.me.log.entries, x.seq = q → x.state = .voided) ∧
      ((∀ x ∈ s.me.log.entries, s.me.log.pan < x.pan + 11) → ∃ t, exec (.logqResend d a) s = .next t ∧ t.flow = s.flow ∧ SameRegs s t ∧
        t.me.flight = s.me.flight ++ sres 1 d 0 ∧ ∀ x ∈ t.me.log.entries, x.seq = q → x.state = .sent)) ∧
    (s.me.sup = true → e.isRefused = false →
      Completes (.logqVoid d a) s (sres 1 d 1) ∧ Completes (.logqResend d a) s (sres 1 d 1))) ∧
  (s.me.sup = true → s.me.log.entries.find? (fun e => e.seq == q) = none → reached s.me.log.seq q = false →
    Completes (.logqVoid d a) s (sres 1 d 2) ∧ Completes (.logqResend d a) s (sres 1 d 2))

/-- R76, R77, R79, R87, R90, R412: a home answers a sent entry as its bytes' homes answer: it accepts it, refuses it
with a reason, or leaves it behind a migrating page; a forced entry is written at home once it is accepted; an accepted
entry that nothing of its banks precedes is written at its homes, each byte once, and is gone when its pan is settled; a
sleeper on a flag word reads it again, and keeps a word that lets it go on; a sleeper behind a migrating page wakes to
ask again, where nothing came to its channel before it (R444, log 80); none of them before its partition has resumed
(R422); and a refused entry is taken as cause 6 with its reason, address and sequence at a boundary of a slot at task
level. -/
def Obligations.HomeEvents : Prop := ∀ (s : State) (slot seq : Nat),
  (∀ e, (s.slot slot).log.entries.find? (fun e => e.seq == seq) = some e → e.state = .sent →
    let after := fun (f : Entry → Entry) => (s.slot slot).log.pansHeld < 12 → e.loose = [] →
      ∃ t, exec (.entryAcceptance slot seq) s = .next t ∧ SameRegs s t ∧
      (t.slot slot).log.entries = (s.slot slot).log.entries.map fun x => if x.seq = seq then f x else x
    (s.answerAll slot e.raw e.cells = none → after fun x => { x with state := .sent }) ∧
    (∀ r, s.answerAll slot e.raw e.cells = some (.error r) → after fun x => { x with state := .refused r, trapDue := true }) ∧
    (∀ keys, s.answerAll slot e.raw e.cells = some (.ok keys) → e.forced = false → after fun x =>
      { x with state := .accepted, homes := keys, pages := s.pagesUnder slot e.cells }) ∧
    (∀ keys, s.answerAll slot e.raw e.cells = some (.ok keys) → e.forced = true → (s.slot slot).log.entries = [e] →
      keys ≠ [] → (∀ k ∈ keys, s.heldHome k = false) → Memory.wf s.mem = true →
      ∃ t, exec (.entryAcceptance slot seq) s = .next t ∧ SameRegs s t ∧ (t.slot slot).log.entries = [] ∧
        HasHome s t { e with homes := keys })) ∧
  ((∀ e ∈ (s.slot slot).log.entries, e.seq = seq → e.state ≠ .sent) → exec (.entryAcceptance slot seq) s = .next s) ∧
  (∀ es e fs, (s.slot slot).log.entries = es ++ e :: fs → e.seq = seq → (∀ x ∈ es ++ fs, x.seq ≠ seq) → s.canWrite e →
    (∀ x ∈ es, x.settled = true ∨ ∀ b ∈ x.banks, b ∉ e.banks) → (∀ x ∈ es ++ fs, x.forced = false) →
    (∀ x ∈ es ++ e :: fs, (s.slot slot).log.pan < x.pan + 11) → Memory.wf s.mem = true →
    ∃ t, exec (.crystallisation slot seq) s = .next t ∧ SameRegs s t ∧ WrittenHome s t e ∧
      (∀ x ∈ (t.slot slot).log.entries, x.seq = seq → x.state = .crystallised) ∧
      (∀ x ∈ es ++ fs, x.settled = false → x ∈ (t.slot slot).log.entries) ∧
      (es = [] → fs = [] → (t.slot slot).log.entries = []) ∧
      (e.bad = true → ∀ k ∈ e.homes, k / 64 ∈ t.poison)) ∧
  (∀ k q, (s.slot slot).status = .asleep → (s.slot slot).cond = .flagWord k q →
    let x := s.slot slot
    let f := BitVec.ofNat 64 (s.mem.num k 8)
    (f = 0 ∨ reached (f.toNat % 2 ^ 44) q = false ∨ s.stillOut slot = true → exec (.acqfReread slot) s = .next s) ∧
    (f ≠ 0 → reached (f.toNat % 2 ^ 44) q = true → s.stillOut slot = false → exec (.acqfReread slot) s = .next (s.setSlot slot
      { x with cond := .flagSeen f, redo := x.redo.map fun r => { r with cond := .flagSeen f },
               sys := { x.sys with chkint := if s.anyPoison k 8 then x.sys.chkint ||| 2 else x.sys.chkint } }))) ∧
  (∀ va, (s.slot slot).status = .asleep → (s.slot slot).cond = .migration va →
    let ahead := ∃ (i j : Nat) (x y : HostAccess), i < j ∧ s.host.waiting[i]? = some y ∧ s.host.waiting[j]? = some x ∧
      y.ni = x.ni ∧ x.asker = .slot slot ∧ ∀ z ∈ s.host.waiting.take j, z.asker ≠ .slot slot
    (s.stillOut slot = true ∨ ahead → exec (.walkRetry slot) s = .next s) ∧
    (s.stillOut slot = false → ¬ ahead → ∃ t, exec (.walkRetry slot) s = .next t ∧
      t.slot slot = { s.slot slot with status := .ready, cond := .none } ∧ t.mem = s.mem ∧
      ∀ k, k ≠ slot → t.slot k = s.slot k)) ∧
  ((s.slot slot).status ≠ .asleep → exec (.walkRetry slot) s = .next s) ∧
  ((∀ k q, (s.slot slot).cond ≠ .flagWord k q) → exec (.acqfReread slot) s = .next s) ∧
  (∀ e r pn p, (s.slot slot).log.entries.find? (fun e => e.isRefused && e.trapDue) = some e → e.state = .refused r →
    (s.slot slot).status = .ready → (s.slot slot).redo = none → (s.slot slot).sup = false → s.stillOut slot = false →
    (s.core (coreOf slot)).phase = none → (∀ k, coreOf k = coreOf slot → (s.slot k).flight = []) → s.gangless slot →
    s.partAt (lcolOf slot) = some (pn, p) → s.part? pn = some p → p.trapvec.getLsbD 0 = true →
    ∃ t, exec (.strefused slot) s = .next t ∧ t.mem = s.mem ∧ (t.slot slot).regs = (s.slot slot).regs ∧
      (t.slot slot).trap = { (s.slot slot).trap with
        cause := BitVec.ofNat 64 (r * 2 ^ 8 + 6), pc := (s.slot slot).pc &&& 0xFFFFFFFFFFFFFFF8, addr := e.va,
        seq := BitVec.ofNat 64 e.seq, status := 1 } ∧
      (t.slot slot).pc = p.trapvec &&& 0xFFFFFFFFFFFFFFF8) ∧
  ((∀ e ∈ (s.slot slot).log.entries, e.isRefused = false ∨ e.trapDue = false) ∨ (s.slot slot).sup = true ∨
    (s.core (coreOf slot)).phase ≠ none ∨ s.stillOut slot = true → exec (.strefused slot) s = .next s)

/-! ## Messages (R274 to R284) -/

/-- R70, R274, R275, R277, R278, R280, R283, R284, R276, R279, R281, R282: EPN gives endpoints by part, group, row and place.
SEND of an endpoint the issuer may not name raises PROT; with 16 messages queued it gives 0 and sends nothing, else it
queues one message with its payload and gives the message's number. RECV, POLL and DEQ raise ILLEGAL with the inbox
off; on an empty ring RECV sleeps with its bundle and the others give all ones; else they give the head's offset, and
DEQ the record's kind, moving the head past the record. A write of INBOX empties the ring. A message that has a place
in its receiver's ring is written there with its record, the tail past it, and leaves the streets; one that the ring has no
room for stands in the overflow area; one to another device leaves; one that cannot be
delivered returns to its sender as a notice with its reason; what has not been released (R192), what is not the oldest of
its sender to its endpoint or to its endpoint's cluster, and what comes after messages of before a rewriting of the tables
(R380) waits. DEQ loads MSGLAT from a message's record (R280), charges a service task with the group of a charged work
record, and of a copy's completion drops the slot's view lines over what it wrote; it sleeps where that forces an entry that
is not home. That a message counts among the 16 until its delivery is log 28 (DESIGN CHOICE), the endpoint as SEND's
TRAPADDR log 20, and the least unit of a message's record log 34 (both DEDUCED). -/
def Obligations.MessagesAndDelivery : Prop :=
  ((∀ (s : State) (d a : SReg),
      let f := fun (lo n : Nat) (w : Word) => w.toNat / 2 ^ lo % 2 ^ n
      let x := s.me.sys.tgext
      let place := fun (c : Word) => BitVec.ofNat 64 (s.me.partNo * 2 ^ 38 + s.me.tgid * 2 ^ 22 +
        (f 19 6 c * (f 13 6 x + 1) + f 13 6 c) % 64 * 2 ^ 13 + f 0 13 c)
      let inside := fun (c : Word) => f 19 6 c ≤ f 19 6 x ∧ f 13 6 c ≤ f 13 6 x ∧ f 8 5 c ≤ f 8 5 x ∧ f 3 5 c ≤ f 3 5 x ∧
        f 0 3 c ≤ f 0 3 x
      Completes (.epn d) s (sres 1 d (place s.me.sys.coord)) ∧
      (inside (s.rs a) → Completes (.epnC d a) s (sres 1 d (place (s.rs a)))) ∧
      (¬ inside (s.rs a) → Completes (.epnC d a) s (sres 1 d 0xFFFFFFFFFFFFFFFF)) ∧
      Completes (.epnL d) s (sres 1 d (BitVec.ofNat 64 (s.me.partNo * 2 ^ 38)))) ∧
    (∀ (s : State) (d a b : SReg) (len : BitVec 3),
      let n := 32 * (len.toNat + 1)
      let queue := s.msgs.filter fun m => coreOf m.src == coreOf s.cur
      (s.epAllowed s.me (s.rs b) = false → Traps (.send d a b len) s 0x04 0 (s.rs b)) ∧
      ∀ w o, s.epAllowed s.me (s.rs b) = true → s.localAt (s.rs a) w o → (s.rs a).toNat % 32 = 0 → o + n ≤ 2 ^ 17 →
        s.me.permits [3] o n = true →
        (16 ≤ queue.length → ∃ t c, exec (.send d a b len) s = .next t ∧ SameRegs s t ∧ t.mem = s.mem ∧ t.msgs = s.msgs ∧
          s.stallsFor (List.range' o n) c ∧ t.me.flight = s.me.flight ++ stalled c ++ sres 1 d 0) ∧
        (queue.length < 16 → ∃ (t : State) (m : Msg) (c : Nat), exec (.send d a b len) s = .next t ∧ SameRegs s t ∧
          t.mem = s.mem ∧ s.stallsFor (List.range' o n) c ∧ t.msgs = s.msgs ++ [m] ∧ m.src = s.cur ∧ m.srcEp = s.me.endpoint ∧ m.dst = s.rs b ∧
          m.payload = ((List.range n).map fun i => s.ownByte (o + i)) ∧ m.born = t.myCore.now + 2 ∧ m.old = false ∧ 0 < m.msgno ∧ m.msgno < 2 ^ 32 ∧
          m.msgno = (if s.me.counters.msgno % 2 ^ 32 = 2 ^ 32 - 1 then 1 else s.me.counters.msgno % 2 ^ 32 + 1) ∧
          t.me.counters.msgno = m.msgno ∧ t.me.flight = s.me.flight ++ stalled c ++ sres 1 d (BitVec.ofNat 64 m.msgno))) ∧
    (∀ (s : State) (d : SReg),
      (s.me.inboxOn = false → Traps (.recv d) s 0x01 0 s.ir ∧ Traps (.poll d) s 0x01 0 s.ir ∧ Traps (.deq d) s 0x01 0 s.ir) ∧
      (s.me.inboxOn = true → s.me.ringHeld = 0 →
        exec (.recv d) s = .next { s.setSlot s.cur { s.me with status := .asleep, cond := .record } with flow := .held } ∧
        Completes (.poll d) s (sres 1 d 0xFFFFFFFFFFFFFFFF) ∧ Completes (.deq d) s (sres 1 d 0xFFFFFFFFFFFFFFFF)) ∧
      (s.me.inboxOn = true → s.me.ringHeld ≠ 0 →
        let head := BitVec.ofNat 64 (s.me.ringBase + s.me.ringHead % s.me.ringSize)
        let kind := (s.mem.read (s.ringKey s.cur s.me.ringHead)).toNat
        let units := (s.mem.read (s.ringKey s.cur (s.me.ringHead + 1))).toNat
        let ls := s.myCore.view.filter fun l => l.slot == slotNo s.cur && s.overCopy kind (s.ringBytes s.cur s.me.ringHead 32) l
        let u := s.dropLines (coreOf s.cur) fun l =>
          l.slot == slotNo s.cur && s.overCopy kind (s.ringBytes s.cur s.me.ringHead 32) l
        Completes (.recv d) s (sres 1 d head) ∧ Completes (.poll d) s (sres 1 d head) ∧
        (kind ≠ 2 → ls = []) ∧
        let r := s.ringBytes s.cur s.me.ringHead 32
        let charges := s.cur % 4 = 3 ∧ 2 ≤ kind ∧ kind ≤ 5 ∧ recNat 3 1 r / 2 % 2 = 1
        let stall := fun (c : Nat) => s.stallsFor ((List.range 32).map fun i =>
          s.me.ringBase + (s.me.ringHead + i) % s.me.ringSize) c
        s.me.redo = none →
        ((∃ l ∈ ls, u.dropStalls l = true) → ∃ t, exec (.deq d) s = .next t ∧ t.flow = .slept ∧ t.me.status = .asleep ∧
          t.me.cond = .lines none ∧ t.me.regs = s.me.regs ∧ t.me.ringHead = s.me.ringHead ∧
          (t.core (coreOf s.cur)).view = s.myCore.view) ∧
        ((∀ l ∈ ls, u.dropStalls l = false) → ∃ t c, exec (.deq d) s = .next t ∧ t.me.regs = s.me.regs ∧ stall c ∧
          (kind = 1 → t.me.sys.msglat.toNat = recNat 20 4 r + recNat 16 1 r * 2 ^ 32 + recNat 17 1 r % 16 * 2 ^ 40 +
            recNat 18 1 r % 2 * 2 ^ 44) ∧ (kind ≠ 1 → t.me.sys.msglat = s.me.sys.msglat) ∧
          (charges → t.me.charge = some (recNat 3 1 r / 16) ∧ recNat 3 1 r / 16 ∈ t.me.charged) ∧
          (¬ charges → t.me.charge = s.me.charge ∧ t.me.charged = s.me.charged) ∧
          t.me.ringHead = (s.me.ringHead + min (if kind = 1 then 32 * max units 1 else 32) s.me.ringHeld) %
            (2 * s.me.ringSize) ∧
          let gives := fun (lat : Nat) => t.me.flight = s.me.flight ++ stalled c ++ sres lat d (BitVec.ofNat 64 kind)
          ((∃ l ∈ ls, s.dropForces l = true) → t.flow = .answered ∧ gives 2) ∧
          ((∀ l ∈ ls, s.dropForces l = false) → t.flow = s.flow ∧ gives 1)))) ∧
    (∀ (s : State) (slot : Nat) (v : Word), exec (.inboxWrite slot v) s = .next (s.setSlot slot
      { s.slot slot with sys := { (s.slot slot).sys with inbox := v &&& 0x71FC01 }, spilled := [], works := [] })) ∧
    (∀ (s : State) (part : BitVec 4) (v : Word) (p : Part), s.part? part.toNat = some p →
      ∃ t, exec (.bankkeyWrite part v) s = .next t ∧ t.mem = s.mem ∧ t.slots = s.slots ∧ t.part? part.toNat =
        some { p with bankkeyKept := (p.bankkeyKept &&& ~~~ 0xFFFFFFF) ||| (v &&& 0xFFFFFFF) })) ∧
  (∀ (s : State) (core index lat : Nat), s.msgAt core index = none →
    exec (.messageDelivery core index lat) s = .next s ∧ exec (.undeliverableNotice core index) s = .next s) ∧
  (∀ (s : State) (core index lat k : Nat) (m : Msg),
    s.msgAt core index = some m → Memory.wf s.mem = true →
    (s.foremost m = true ↔ m.born ≤ s.time ∧ (m.old = true ∨ ∀ x ∈ s.msgs, x.old = false) ∧ s.isOut m.src = false ∧
      s.msgs.find? (fun x => s.sameWay x m) = some m) ∧
    (s.foremost m = true → s.fate m = .away →
      exec (.messageDelivery core index lat) s = .next { s with msgs := s.msgs.filter fun x => x != m }) ∧
    (s.foremost m = false → exec (.messageDelivery core index lat) s = .next s ∧
      exec (.undeliverableNotice core index) s = .next s) ∧
    (s.foremost m = true → s.fate m = .slot k → s.lost.contains (lcolOf k) = false →
      ((s.slot k).spilled ≠ [] ∨ (s.slot k).ringSize - (s.slot k).ringHeld < m.payload.length + 32) →
      ∃ t r, exec (.messageDelivery core index lat) s = .next t ∧ SameRegs s t ∧ t.mem = s.mem ∧
        t.msgs = s.msgs.filter (fun x => x != m) ∧ (t.slot k).spilled = (s.slot k).spilled ++ [r] ∧
        (t.slot k).sys = (s.slot k).sys ∧ r.bytes.length = m.payload.length + 32 ∧ recNat 0 1 r.bytes = 1 ∧
        recNat 4 4 r.bytes = m.msgno % 2 ^ 32 ∧ recNat 8 8 r.bytes = m.srcEp.toNat ∧ r.bytes.drop 32 = m.payload) ∧
    (s.foremost m = true → s.fate m = .slot k → (s.slot k).spilled = [] → s.isOut k = false →
      m.payload.length + 32 ≤ (s.slot k).ringSize - (s.slot k).ringHeld → m.payload.length ≤ 256 →
      (∀ c, s.isLost (s.ringKey k c) = false) →
      ∃ t, exec (.messageDelivery core index lat) s = .next t ∧ SameRegs s t ∧ t.msgs = s.msgs.filter (fun x => x != m) ∧
        let c := (s.slot k).ringTail
        (t.slot k).ringTail = (c + m.payload.length + 32) % (2 * (s.slot k).ringSize) ∧
        t.mem.read (s.ringKey k c) = 1 ∧
        (∀ i < 4, t.mem.read (s.ringKey k (c + 4 + i)) = BitVec.ofNat 8 (m.msgno / 2 ^ (8 * i))) ∧
        (∀ i < 8, t.mem.read (s.ringKey k (c + 8 + i)) = BitVec.ofNat 8 (m.srcEp.toNat / 2 ^ (8 * i))) ∧
        (∀ i < m.payload.length, t.mem.read (s.ringKey k (c + 32 + i)) = m.payload.getD i 0) ∧
        ∀ x, (∀ i < m.payload.length + 32, x ≠ s.ringKey k (c + i)) → t.mem.read x = s.mem.read x) ∧
    (s.foremost m = true → s.fate m = .launch → ∀ p, s.part? (epPart m.dst) = some p →
      ∃ t, exec (.messageDelivery core index lat) s = .next t ∧ SameRegs s t ∧ t.mem = s.mem ∧
        t.part? (epPart m.dst) = some { p with
          launches := p.launches ++ [{ bytes := m.payload, sender := some (m.src, m.srcEp, m.msgno) }] }) ∧
    (∀ r, s.foremost m = true → s.fate m = .back r → (s.slot m.src).status ≠ .free → (s.slot m.src).endpoint = m.srcEp →
      (s.slot m.src).inboxOn = true → (s.slot m.src).spilled = [] → s.isOut m.src = false →
      16 ≤ m.payload.length → 32 ≤ (s.slot m.src).ringSize - (s.slot m.src).ringHeld →
      (∀ c, s.isLost (s.ringKey m.src c) = false) →
      ∃ t, exec (.undeliverableNotice core index) s = .next t ∧ SameRegs s t ∧
        t.msgs = s.msgs.filter (fun x => x != m) ∧ let c := (s.slot m.src).ringTail
        t.mem.read (s.ringKey m.src c) = 7 ∧ t.mem.read (s.ringKey m.src (c + 1)) = BitVec.ofNat 8 r ∧
        ∀ i < 8, t.mem.read (s.ringKey m.src (c + 8 + i)) = BitVec.ofNat 8 (m.dst.toNat / 2 ^ (8 * i))))

/-! ## Copies (R285 to R291) -/

/-- R285, R286, R291, R287 to R290: CPY raises ILLEGAL with the inbox off and for a length outside 32 to 2^31, ALIGN for
a source, a destination or a length off 32 bytes, PROT for an end that decodes to nothing, and whatever else its checks
find; with 256 copies of the core in flight it gives 0, else it queues the copy its descriptor describes and gives its
number. CPYQ gives 0 for a number not issued, 1 for a copy that waits, 2 for one that moves, 3 for one that is done. A
chunk of a copy that comes home has its bytes at its destination and nowhere else; when every chunk is home the copy
ends, and a record of kind 2 with its number and length stands at the tail of its task's ring; one whose next piece
meets a fault ends with that code and the bytes before it; the record of a killed task's copy is discarded. That a chunk
moves at once, so that a faulted copy has whole chunks home, is log 35 (DESIGN CHOICE). -/
def Obligations.CopiesToHome : Prop :=
  ((∀ (s : State) (d a : SReg), s.me.inboxOn = false → Traps (.cpy d a) s 0x01 0 s.ir) ∧
    (∀ (s : State) (d a : SReg) (w o : Nat), s.me.inboxOn = true → s.localAt (s.rs a) w o → (s.rs a).toNat % 32 = 0 →
      o + 32 ≤ 2 ^ 17 → s.me.permits [3] o 32 = true →
      let num := fun (i n : Nat) => leNat ((List.range n).map fun j => s.ownByte (o + i + j))
      let own := s.copies.filter fun x => coreOf x.slot == coreOf s.cur
      (num 16 4 < 32 ∨ 2 ^ 31 < num 16 4 → Traps (.cpy d a) s 0x01 0 s.ir) ∧
      (32 ≤ num 16 4 → num 16 4 ≤ 2 ^ 31 → num 8 8 % 32 ≠ 0 → Traps (.cpy d a) s 0x03 0 (BitVec.ofNat 64 (num 8 8))) ∧
      (32 ≤ num 16 4 → num 16 4 ≤ 2 ^ 31 → num 8 8 % 32 = 0 → num 0 8 % 32 ≠ 0 →
        Traps (.cpy d a) s 0x03 0 (BitVec.ofNat 64 (num 0 8))) ∧
      (32 ≤ num 16 4 → num 16 4 ≤ 2 ^ 31 → num 8 8 % 32 = 0 → num 0 8 % 32 = 0 →
        (num 16 4 % 32 ≠ 0 → Traps (.cpy d a) s 0x03 0 (s.rs a)) ∧
        (num 16 4 % 32 = 0 → num 22 2 / 2 % 2 = 0 → s.myTarget (BitVec.ofNat 64 (num 8 8)) = none →
          Traps (.cpy d a) s 0x04 0 (BitVec.ofNat 64 (num 8 8)))) ∧
      (∀ code detail va, s.checkCopy (s.rs a) (s.spadBytes o 32) = .error (code, detail, va) →
        Traps (.cpy d a) s code detail va) ∧
      (∀ c, s.checkCopy (s.rs a) (s.spadBytes o 32) = .ok c →
        (256 ≤ own.length → ∃ t w, exec (.cpy d a) s = .next t ∧ SameRegs s t ∧ t.mem = s.mem ∧ t.copies = s.copies ∧
          s.stallsFor (List.range' o 32) w ∧ t.me.flight = s.me.flight ++ stalled w ++ sres 1 d 0) ∧
        (own.length < 256 → ∃ t w, exec (.cpy d a) s = .next t ∧ SameRegs s t ∧ t.mem = s.mem ∧
          t.copies = s.copies ++ [{ c with due := t.myCore.now + 2 }] ∧ s.stallsFor (List.range' o 32) w ∧
          c.slot = s.cur ∧ c.dst.toNat = num 0 8 ∧ c.src.toNat = num 8 8 ∧ c.len = num 16 4 ∧ c.tag = num 20 2 ∧
          c.running = false ∧ c.done = [] ∧ 0 < c.id ∧ c.id < 2 ^ 32 ∧ t.me.counters.copyId = c.id ∧
          t.me.flight = s.me.flight ++ stalled w ++ sres 1 d (BitVec.ofNat 64 c.id)))) ∧
    (∀ (s : State) (d a : SReg),
      let id := (s.rs a).toNat % 2 ^ 32
      let late := id = 0 ∨ 2 ^ 31 ≤ (s.me.counters.copyId + 2 ^ 32 - id) % 2 ^ 32
      (late → Completes (.cpyq d a) s (sres 1 d 0)) ∧
      (∀ c, ¬ late → s.copyOf s.cur id = some c → Completes (.cpyq d a) s (sres 1 d (if c.running then 2 else 1))) ∧
      (¬ late → s.copyOf s.cur id = none → Completes (.cpyq d a) s (sres 1 d 3)))) ∧
  (∀ (s : State) (slot id : Nat) (c : Copy),
    s.copyOf slot id = some c → s.unitFree c = true → Memory.wf s.mem = true →
    (∀ j sk dk n, n = min 4096 (c.len - 4096 * j) → n % 32 = 0 → 0 < n → j ∉ c.done → c.chunked = false →
      c.accSrc = false → c.accDst = false →
      (∀ i < n / 32, c.source s (4096 * j + 32 * i) = .at (sk + 32 * i) none ∧
        c.target s (4096 * j + 32 * i) = .at (dk + 32 * i) none) →
      (∀ x < n, s.isBad (sk + x) = false ∧ s.isLost (dk + x) = false ∧ ∀ y < n, sk + x ≠ dk + y) →
      ∃ t, exec (.chunkRecord slot id j) s = .next t ∧ SameRegs s t ∧
        (∀ x < n, t.mem.read (dk + x) = s.mem.read (sk + x)) ∧
        (∀ k, (∀ x < n, k ≠ dk + x) → t.mem.read k = s.mem.read k) ∧
        ∃ u, t.copyOf slot id = some u ∧ u.running = true ∧ ∀ x, x ∈ u.done ↔ x = j ∨ x ∈ c.done) ∧
    (∀ j, (c.len + 4095) / 4096 ≤ j ∨ j ∈ c.done → exec (.chunkRecord slot id j) s = .next s) ∧
    (c.next = none → c.orphan = true → exec (.copyCompletion slot id) s =
      .next { s with copies := s.copies.filter fun x => !(x.slot == slot && x.id == id) }) ∧
    (c.orphan = false → (s.slot slot).inboxOn = true → (s.slot slot).spilled = [] →
      32 ≤ (s.slot slot).ringSize - (s.slot slot).ringHeld → (∀ x, s.isLost (s.ringKey slot x) = false) →
      let ends := fun (status fault bytes : Nat) => ∃ t, exec (.copyCompletion slot id) s = .next t ∧ SameRegs s t ∧
        t.copies = s.copies.filter (fun x => !(x.slot == slot && x.id == id)) ∧
        let k := (s.slot slot).ringTail
        (t.slot slot).ringTail = (k + 32) % (2 * (s.slot slot).ringSize) ∧ t.mem.read (s.ringKey slot k) = 2 ∧
        t.mem.read (s.ringKey slot (k + 1)) = BitVec.ofNat 8 status ∧
        t.mem.read (s.ringKey slot (k + 2)) = BitVec.ofNat 8 fault ∧
        (∀ i < 4, t.mem.read (s.ringKey slot (k + 4 + i)) = BitVec.ofNat 8 (c.id / 2 ^ (8 * i))) ∧
        ∀ i < 8, t.mem.read (s.ringKey slot (k + 8 + i)) = BitVec.ofNat 8 (bytes / 2 ^ (8 * i))
      (c.next = none → ends 0 0 c.len) ∧
      ∀ j e, c.next = some j → 32 ≤ c.len - 4096 * j → c.accSrc = false → c.accDst = false → 0 < e → e < 2 ^ 8 →
        (c.source s (4096 * j) = .fault e ∨
          ((∀ x, c.source s (4096 * j) ≠ .fault x) ∧ c.target s (4096 * j) = .fault e)) → ends 1 e (4096 * j))) ∧
  (∀ (s : State) (slot id j : Nat), (s.copyOf slot id = none ∨ ∃ c, s.copyOf slot id = some c ∧ s.unitFree c = false) →
    exec (.chunkRecord slot id j) s = .next s ∧ exec (.copyCompletion slot id) s = .next s)

/-! ## Barriers (R154 to R165, R292, R293) -/

/-- R154, R157, R292, R293, R156, R166, R431: BAR and BAR.C raise ILLEGAL in a service task and in a handler; a member
with nothing left to do arrives and sleeps with its bundle, as a participant with BAR.C; one with work in flight sleeps
until it is done, one with an entry that no home will answer yet until it is answered; when the barrier has passed the
instruction gives the generation. BARGEN gives a group's generation; BARWAIT goes on when it has passed v within 2^31 -
1, and else sleeps. Step 6 of a barrier ends when the last of its cores has settled within 256 cycles (log 42); after
256 cycles it ends by itself and poisons the participants whose cores have not. The release lets every member that
sleeps in the barrier go on where its district's counter reads one value, not before 64 cycles past step 6 nor before
its partition resumes, and no other slot; it puts the cores of its participants into a phase whose offset 0 is that
value. -/
def Obligations.BarriersAndReleases : Prop :=
  (∀ (s : State) (d a b : SReg),
    (∀ p ∈ [(Instr.bar d, false), (Instr.barC d, true)],
      (s.me.svc = true ∨ s.me.sup = true → Traps p.1 s 0x01 0 s.ir) ∧
      (s.me.svc = false → s.me.sup = false →
        (∀ gen x, s.me.bar = .passed gen x → Completes p.1 s (sres 1 d (BitVec.ofNat 64 gen))) ∧
        (s.me.bar = .away → s.inPhase = false → s.me.log.entries = [] → s.ownWork s.cur = false →
          ∃ t, exec p.1 s = .next t ∧ t.flow = .held ∧ t.mem = s.mem ∧ t.me = { s.me with
            status := .asleep, cond := .barrier, bar := .arrived p.2 false, pub := t.me.pub }) ∧
        (s.me.bar = .away → s.inPhase = false → s.me.log.entries = [] → s.ownWork s.cur = true →
          ∃ t, exec p.1 s = .next t ∧ t.flow = .held ∧ t.mem = s.mem ∧
            t.me = { s.me with status := .asleep, cond := .work, pub := t.me.pub }) ∧
        (∀ e, s.me.bar = .away → s.inPhase = false → s.me.log.entries = [e] → e.unanswered = true →
          s.answerAll s.cur e.raw e.cells = none → ∃ t, exec p.1 s = .next t ∧ t.flow = .held ∧ t.mem = s.mem ∧
            t.me = { s.me with status := .asleep, cond := .release, log := t.me.log }))) ∧
    Completes (.bargen d a) s (sres 1 d (BitVec.ofNat 64 (s.barOf s.myPart ((s.rs a).toNat % 16)).gen)) ∧
    let g := (s.rs a).toNat % 16
    let v := (s.rs b).toNat % 2 ^ 32
    let ahead := ((s.barOf s.myPart g).gen + 2 ^ 32 - v) % 2 ^ 32
    (1 ≤ ahead → ahead < 2 ^ 31 → exec (.barwait a b) s = .next s) ∧
    (ahead = 0 ∨ 2 ^ 31 ≤ ahead → exec (.barwait a b) s = .next
      { s.setSlot s.cur { s.me with status := .asleep, cond := .generation g v } with flow := .held })) ∧
  (∀ (s : State) (part bgrp : BitVec 4) (slack : Nat),
    let pn := part.toNat
    let g := bgrp.toNat
    let b := s.barOf pn g
    (∀ since left, b.stage = .settling since left → ∀ slot,
      (s.time < since + 256 → exec (.settleLimit part bgrp) s = .next s ∧
        ∃ t, exec (.coreSettled part (bgrp, slot)) s = .next t ∧ t.slots = s.slots ∧ t.cores = s.cores ∧ t.mem = s.mem ∧
          ((∀ k ∈ left, k = slot) → (t.barOf pn g).stage = .settled s.time) ∧
          ((∃ k ∈ left, k ≠ slot) → ∃ rest, (t.barOf pn g).stage = .settling since rest ∧
            ∀ k, k ∈ rest ↔ k ∈ left ∧ k ≠ slot)) ∧
      (since + 256 ≤ s.time → exec (.coreSettled part (bgrp, slot)) s = .next s ∧
        ∃ t, exec (.settleLimit part bgrp) s = .next t ∧ (t.barOf pn g).stage = .settled s.time ∧
          t.mem = s.mem ∧ t.cores = s.cores ∧ SameRegs s t ∧
          (∀ k ∈ left, (t.slot k).sys.chkint = (s.slot k).sys.chkint ||| 2) ∧
          ∀ k, k ∉ left → t.slot k = s.slot k)) ∧
    (∀ ended, b.stage = .settled ended →
      ((∃ k ∈ b.armed, (s.core (coreOf k)).phase ≠ none) → exec (.barrierRelease part bgrp slack) s = .next s) ∧
      ((∀ k ∈ b.armed, (s.core (coreOf k)).phase = none ∧ ∀ j, coreOf j = coreOf k → (s.slot j).flight = []) →
        ∃ (t : State) (t0 : Nat), exec (.barrierRelease part bgrp slack) s = .next t ∧ t.mem = s.mem ∧
          (t.barOf pn g).stage = .gathering ∧ (t.barOf pn g).gen = b.gen ∧ t0 = s.releaseValue b ended + slack ∧
          (∀ k ∈ b.resume, (ended : Int) + 64 + s.slotOfs k + slack ≤ t0 ∧
            (s.resumesAt (lcolOf k) : Int) + s.slotOfs k + slack ≤ t0) ∧
          (∀ k, (t.slot k).wd = (s.slot k).wd ∨ (∃ j ∈ b.armed, coreOf j = coreOf k) ∧ (t.slot k).wd = 0) ∧
          ∀ k, let waits := k ∈ b.resume ∧ (s.slot k).status = .asleep ∧ (s.slot k).cond = .barrier
            let at_ := ((t0 : Int) - s.slotOfs k).toNat
            (¬ waits → t.slot k = { s.slot k with wd := (t.slot k).wd }) ∧
            (waits → k ∉ b.armed → t.slot k = { s.slot k with cond := .answer at_, wd := (t.slot k).wd }) ∧
            (waits → k ∈ b.armed →
              t.slot k = { s.slot k with status := .ready, cond := .none, wd := (t.slot k).wd } ∧
              ((∀ j ∈ b.armed, coreOf j = coreOf k → j = k) → t.core (coreOf k) = { s.core (coreOf k) with
                issuing := some (k % 4), last := k % 4,
                now := at_ - (match (s.slot k).bar with | .passed _ _ => 1 | _ => 0),
                phase := some { slot := k, t0 := t0, windows := [], sentEnd := 0, got := 0, sends := [] } })))))

/-- R155, R157, R162, R436: a barrier of members with empty logs that finds no error bit continues: the generation is one
further, every member's tries, bits and stochastic counter are 0, its mark is its last sequence, and the journal of the
group is gone, memory as it stood. One that finds an error bit, no lost column and no full journal, with fewer than two
tries, restores: the generation stands, every member is back at the registers and the pc of its last barrier, asleep
until the release, its tries one more; every service task charged to the group since its last barrier is back at its start,
READY and charged to nobody; every line of the group's journal reads as it was recorded, with its poison mark, however many
they are, and every other line as before; the group's records are gone and the other groups' stand. With two tries
the same restore ends in ROLLEXH in every member, at the pc it is back at, with the tries as the detail, and its tries are
0. An error bit with a full journal kills the members' task groups, and no barrier is left. A lost column gives every
member QUAR, TRAPADDR that column's base address, at the pc where it stood; the generation stands, and the members sleep on
until the release. -/
def Obligations.BarrierOutcomes : Prop := ∀ (s : State) (part bgrp : BitVec 4),
  let pn := part.toNat
  let g := bgrp.toNat
  let ms := s.members pn g
  let bits := s.checkBits pn g
  (s.barrierDue pn g = false → exec (.barrier part bgrp) s = .next s) ∧
  (s.barrierDue pn g = true → s.lost = [] → (∀ e ∈ s.cores, e.2.failing = false) →
    (∀ k ∈ ms, (s.slot k).log.entries = [] ∧ (s.core (coreOf k)).view = []) →
    (bits = 0 → ∃ t, exec (.barrier part bgrp) s = .next t ∧ t.mem = s.mem ∧
      (t.barOf pn g).gen = ((s.barOf pn g).gen + 1) % 2 ^ 32 ∧
      t.journal = s.journal.filter (fun r => !(r.part == pn && r.group == g)) ∧
      ∀ k ∈ ms, (t.slot k).sys.chkint &&& ~~~ 0x10 = 0 ∧ (t.slot k).stoch = 0 ∧ (t.slot k).mark = (s.slot k).log.seq ∧
        (t.slot k).regs = (s.slot k).regs ∧ (t.slot k).pc = (s.slot k).pc) ∧
    let svcs := s.services pn fun t => t.charged.contains g
    let mine := s.journal.filter fun r => r.part == pn && r.group == g
    (bits ≠ 0 → bits.getLsbD 3 = false → (∀ k ∈ ms, (s.slot k).sys.chkint.getLsbD 16 = false) → s.maxTries ms < 2 →
      (∀ k ∈ svcs, (s.slot k).log.entries = [] ∧ k ∉ ms) → s.undoHeld pn g = false →
      ∃ t, exec (.barrier part bgrp) s = .next t ∧ (t.barOf pn g).gen = (s.barOf pn g).gen ∧
        (∀ k ∈ ms, (t.slot k).regs = ((s.slot k).backTo).regs ∧ (t.slot k).pc = ((s.slot k).backTo).pc ∧
          (t.slot k).status = .asleep ∧ (t.slot k).cond = .barrier ∧ (t.slot k).log.seq = (s.slot k).mark ∧
          (t.slot k).sys.chkint &&& ~~~ 0x10 = BitVec.ofNat 64 ((s.maxTries ms + 1) * 2 ^ 32)) ∧
        (∀ k ∈ svcs, ∀ x, (s.slot k).task = some x → (t.slot k).status = .ready ∧ (t.slot k).charge = none ∧
          (t.slot k).regs = { Regs.start with s := Regs.start.s.set 1 x.args } ∧ (t.slot k).pc = x.entry &&& ~~~ 7 ∧
          g ∉ (t.slot k).charged ∧ ∀ h, h ≠ g → h ∈ (s.slot k).charged → h ∈ (t.slot k).charged) ∧
        t.journal = s.journal.filter (fun r => !(r.part == pn && r.group == g)) ∧
        (Memory.wf s.mem = true → (∀ k ∈ ms ++ svcs, (s.slot k).works = []) →
          (∀ p, s.part? pn = some p → p.layersOf g = []) → (∀ r ∈ mine, r.bytes.length = 64) →
          mine.Pairwise (fun r q => r.line ≠ q.line) →
          (∀ r ∈ mine, (∀ i < 64, t.mem.read (r.line * 64 + i) = r.bytes.getD i 0) ∧
            t.poison.contains r.line = r.poison) ∧
          ∀ x, (∀ r ∈ mine, x / 64 ≠ r.line) → t.mem.read x = s.mem.read x)) ∧
    let vec := fun (k : Nat) => ((s.part? (s.partNoOf k)).map (·.trapvec)).getD 0
    ((s.slots.map (·.1)).Pairwise (· < ·) → (s.parts.map (·.1)).Pairwise (· < ·) →
    (bits ≠ 0 → bits.getLsbD 3 = false → (∀ k ∈ ms, (s.slot k).sys.chkint.getLsbD 16 = false) → 2 ≤ s.maxTries ms →
      svcs = [] → s.undoHeld pn g = false → (∀ k ∈ ms, (vec k).getLsbD 0 = true ∧ ((s.slot k).backTo).flight = []) →
      ∃ t, exec (.barrier part bgrp) s = .next t ∧ (t.barOf pn g).gen = (s.barOf pn g).gen ∧
        t.journal = s.journal.filter (fun r => !(r.part == pn && r.group == g)) ∧
        ∀ k ∈ ms, (t.slot k).regs = ((s.slot k).backTo).regs ∧ (t.slot k).pc = vec k &&& ~~~ 7 ∧
          (t.slot k).trap = { (s.slot k).trap with
            cause := BitVec.ofNat 64 (s.maxTries ms * 256 + 9), pc := ((s.slot k).backTo).pc &&& ~~~ 7, addr := 0,
            status := 1 } ∧
          (t.slot k).status = .asleep ∧ (t.slot k).cond = .barrier ∧ (t.slot k).sys.chkint = 0) ∧
    (∀ (p : Part) (G : Group) (x k : Nat), bits ≠ 0 → bits.getLsbD 3 = false → k ∈ ms →
      (s.slot k).sys.chkint.getLsbD 16 = true → s.part? pn = some p → p.groups.find? (fun y => y.tgid == x) = some G →
      (∀ j ∈ ms, (s.slot j).tgid = x) →
      ∃ (t : State) (q : Part), exec (.barrier part bgrp) s = .next t ∧ t.mem = s.mem ∧ t.part? pn = some q ∧
        (∀ y ∈ q.groups, y.tgid ≠ x) ∧ (1 ≤ G.sig → q.token G.sig = .failed) ∧ (t.barOf pn g).stage = .gathering ∧
        ∀ j ∈ ms, (t.slot j).status = .free) ∧
    (∀ (c : Nat) (cs : List Nat), bits.getLsbD 3 = true → (s.barOf pn g).lostCols = c :: cs →
      (∀ k ∈ ms, (vec k).getLsbD 0 = true ∧ (s.slot k).sup = false ∧ (s.slot k).flight = [] ∧ (s.slot k).redo = none) →
      ∃ t, exec (.barrier part bgrp) s = .next t ∧ t.mem = s.mem ∧ t.journal = s.journal ∧
        (t.barOf pn g).gen = (s.barOf pn g).gen ∧ (t.barOf pn g).stage = .settled s.time ∧ (t.barOf pn g).resume = ms ∧
        ∀ k ∈ ms, (t.slot k).regs = (s.slot k).regs ∧ (t.slot k).pc = vec k &&& ~~~ 7 ∧
          (t.slot k).trap = { (s.slot k).trap with
            cause := 0x0A, pc := (s.slot k).pc &&& ~~~ 7, addr := BitVec.ofNat 64 (2 ^ 41 + c * 2 ^ 26), status := 1 } ∧
          (t.slot k).quar = true ∧ (t.slot k).status = .asleep ∧ (t.slot k).cond = .barrier)))

/-! ## Communication phases (R166 to R175, R294 to R298) -/

/-- R168, R169, R173 to R175, R294 to R298: TTLOAD writes consecutive entries of the timetable. Outside a phase TSEND,
TRECV and MTRX raise ILLEGAL and COMMEND gives 0. In a phase TSEND of a route queues its flits for its offset, and raises
PROT for a route out of the partition; TRECV opens a window, and raises ILLEGAL for a ninth open one or one that overlaps
an open one of its port; MTRX sends its entries' cores their fragments and opens its window; one that comes late sets
ttlate and does nothing, and COMMEND ends the phase, with the count of flits received, or sleeps. A flit leaves in its
cycle with its 32 bytes; it arrives in the next place of an open window, or an MTRX flit in its sender's place, is lost
with ttmiss where no window takes it or ttcoll where it collided, and turns into a notice where no participant stands,
which sets ttmiss in its sender, where that is still the participant that sent it. A window closes at its end; a phase
whose flits have left and whose COMMEND has not been executed ends at offset 2^20 with ttlate. That a COMMEND whose
conditions hold is a switch point is the model's choice (log 91). -/
def Obligations.CommunicationPhase : Prop :=
  (∀ (s : State) (a b : SReg) (w o : Nat),
    let first := (s.rs b).toNat % 256
    let n := (s.rs b).toNat / 256 % 256 + 1
    (256 < first + n → Traps (.ttload a b) s 0x01 0 s.ir) ∧
    (first + n ≤ 256 → s.localAt (s.rs a) w o → (s.rs a).toNat % 8 = 0 → o + 8 * n ≤ 2 ^ 17 →
      s.me.permits [3] o (8 * n) = true →
      ∃ t, exec (.ttload a b) s = .next t ∧ SameRegs s t ∧ t.mem = s.mem ∧ t.flow = s.flow ∧
        (∀ i < n, lookup 0 t.myCore.timetable (first + i) =
          BitVec.ofNat 64 (leNat ((List.range 8).map fun j => s.ownByte (o + 8 * i + j)))) ∧
        ∀ x, (x < first ∨ first + n ≤ x) → lookup 0 t.myCore.timetable x = lookup 0 s.myCore.timetable x)) ∧
  (∀ (s : State) (d a b : SReg), s.myPhase = none →
    Traps (.tsend a b) s 0x01 0 s.ir ∧ Traps (.trecv a b) s 0x01 0 s.ir ∧ Traps (.mtrx d a b) s 0x01 0 s.ir ∧
    Completes (.commend d) s (sres 1 d 0)) ∧
  (∀ (s : State) (a b : SReg) (p : Phase) (w o : Nat), s.myPhase = some p →
    let e := (lookup 0 s.myCore.timetable ((s.rs b).toNat % 256)).toNat
    let n := (s.rs b).toNat / 256 % 256 + 1
    let at_ := (s.rs b).toNat / 2 ^ 16 % 2 ^ 20
    (e / 2 ^ 62 ≠ 1 → Traps (.tsend a b) s 0x01 0 s.ir) ∧
    (e / 2 ^ 62 = 1 → s.curPart.hasCol (e % 2 ^ 15) = false → ∃ addr, exec (.tsend a b) s = .next
      { { s with fresh := s.fresh + 1 }.takeTrap s.cur s.me.pc 0x04 0 addr none with flow := .trapped }) ∧
    (e / 2 ^ 62 = 1 → s.curPart.hasCol (e % 2 ^ 15) = true → s.localAt (s.rs a) w o → (s.rs a).toNat % 32 = 0 →
      o + 32 * n ≤ 2 ^ 17 → s.me.permits [3] o (32 * n) = true →
      (at_ < s.myOffset p ∨ at_ < p.sentEnd → ∃ t, exec (.tsend a b) s = .next t ∧ SameRegs s t ∧ t.cores = s.cores ∧
        t.mem = s.mem ∧ t.me.sys.chkint = s.me.sys.chkint ||| 0x40) ∧
      (s.myOffset p ≤ at_ → p.sentEnd ≤ at_ → ∃ (t : State) (x : Sending), exec (.tsend a b) s = .next t ∧ t.slots = s.slots ∧
        t.mem = s.mem ∧ t.myCore.phase = some { p with sends := p.sends ++ [x], sentEnd := at_ + n } ∧
        t.myCore.now = max s.myCore.now (s.myTimeAt p at_) ∧ x.depart = s.myTimeAt p at_ ∧ x.left = n ∧ x.off = o ∧ x.dst = e % 2 ^ 15 * 8 + e / 2 ^ 15 % 8 ∧
        x.port = e / 2 ^ 18 % 4 ∧ x.lane = e / 2 ^ 20 % 16 ∧ x.mtrx = none))) ∧
  (∀ (s : State) (a b : SReg) (p : Phase) (w o : Nat), s.myPhase = some p →
    let opens := (s.rs b).toNat % 2 ^ 20
    let width := (s.rs b).toNat / 2 ^ 20 % 2 ^ 16 + 1
    let cap := (s.rs b).toNat / 2 ^ 36 % 2 ^ 11 + 1
    let port := (s.rs b).toNat / 2 ^ 48 % 4
    let live := fun (x : Window) => x.frag = none ∧ x.closed = false ∧ s.myOffset p < min (x.opens + x.width) (2 ^ 20)
    let clash := fun (x : Window) => x.port = port ∧ x.opens < opens + width ∧ opens < x.opens + x.width
    ((∃ x ∈ p.windows, live x ∧ clash x) ∨ 8 ≤ (p.windows.filter live).length → Traps (.trecv a b) s 0x01 0 s.ir) ∧
    ((∀ x ∈ p.windows, live x → ¬ clash x) → (p.windows.filter live).length < 8 →
    s.localAt (s.rs a) w o → (s.rs a).toNat % 32 = 0 → o + 32 * cap ≤ 2 ^ 17 → s.me.permits [4] o (32 * cap) = true →
    (opens < s.myOffset p → ∃ t, exec (.trecv a b) s = .next t ∧ SameRegs s t ∧ t.cores = s.cores ∧ t.mem = s.mem ∧
      t.me.sys.chkint = s.me.sys.chkint ||| 0x40) ∧
    (s.myOffset p ≤ opens → ∃ t, exec (.trecv a b) s = .next t ∧ t.slots = s.slots ∧ t.mem = s.mem ∧
      t.myCore.phase = some { p with windows := p.windows ++ [{
        port := port, opens := opens, width := width, base := o, cap := cap, got := 0, frag := none,
        closed := false }] }))) ∧
  (∀ (s : State) (d a b : SReg) (p : Phase) (w o v q : Nat), s.myPhase = some p →
    let at_ := (s.rs b).toNat % 2 ^ 20
    let f := (s.rs b).toNat / 2 ^ 20 % 256 + 1
    let first := (s.rs b).toNat / 2 ^ 28 % 256
    let n := (s.rs b).toNat / 2 ^ 36 % 256 + 1
    let i := (s.rs b).toNat / 2 ^ 44 % 256
    let entry := fun j => (lookup 0 s.myCore.timetable (first + j)).toNat
    (n ≤ i ∨ 256 < first + n → Traps (.mtrx d a b) s 0x01 0 s.ir) ∧
    (i < n → first + n ≤ 256 → (∀ j < n, entry j / 2 ^ 62 = 2 ∧ entry j % 256 ≤ 191) →
      s.localAt (s.rs a) w o → (s.rs a).toNat % 32 = 0 → o + 32 * n * f ≤ 2 ^ 17 →
      s.me.permits [3] o (32 * n * f) = true → s.localAt (s.rs d) v q → (s.rs d).toNat % 32 = 0 →
      q + 32 * n * f ≤ 2 ^ 17 → s.me.permits [4] q (32 * n * f) = true →
      (at_ < s.myOffset p ∨ at_ < p.sentEnd → ∃ t, exec (.mtrx d a b) s = .next t ∧ SameRegs s t ∧ t.cores = s.cores ∧
        t.mem = s.mem ∧ t.me.sys.chkint = s.me.sys.chkint ||| 0x40) ∧
      (s.myOffset p ≤ at_ → p.sentEnd ≤ at_ →
      ∃ (t : State) (xs : List Sending), exec (.mtrx d a b) s = .next t ∧ t.slots = s.slots ∧ t.mem = s.mem ∧
        t.myCore.now = max s.myCore.now (s.myTimeAt p (at_ + 6 + n * f) - 1) ∧ t.myCore.phase = some { p with
          sends := p.sends ++ xs, sentEnd := at_ + n * f, windows := p.windows ++ [{
            port := 4, opens := at_ + 6, width := n * f, base := q, cap := n * f, got := 0, frag := some f, closed := false }] } ∧
        xs.length = n ∧ ∀ j < n, ∃ x : Sending, xs[j]? = some x ∧ x.left = f ∧ x.off = o + 32 * f * j ∧
          x.dst = s.cur / 768 * 192 + entry j % 256 ∧ x.port = 4 ∧
          x.depart = s.myTimeAt p (at_ + j * f) ∧ x.mtrx = some (i, 0)))) ∧
  (∀ (s : State) (d : SReg) (p : Phase), s.myPhase = some p →
    (s.phaseDone (coreOf s.cur) s.myCore.now = true → ∃ t, exec (.commend d) s = .next t ∧ t.flow = .switched ∧
      t.mem = s.mem ∧ t.myCore.phase = none ∧
      t.me = { s.me with flight := s.me.flight ++ sres 1 d (BitVec.ofNat 64 p.got) }) ∧
    (s.phaseDone (coreOf s.cur) s.myCore.now = false → ∃ t, exec (.commend d) s = .next t ∧ t.flow = .slept ∧
      t.mem = s.mem ∧ t.myCore = { s.myCore with phase := some { p with ending := true } } ∧
      t.me = { s.me with status := .asleep, cond := .phase })) ∧
  (∀ (s : State) (core : Nat) (p : Phase) (x : Sending) (xs : List Sending), (s.core core).phase = some p →
    p.sends = x :: xs → (∀ c ∈ s.phaseClocks ++ s.departures ++ s.arrivals, x.depart ≤ c) → x.depart ≤ s.time →
    ∃ (t : State) (f : Flit), exec (.flitDeparture core) s = .next t ∧ SameRegs s t ∧ t.mem = s.mem ∧ t.flits.getLast? = some f ∧
      t.flits.length = s.flits.length + 1 ∧ f.src = p.slot ∧ f.dst = x.dst ∧ f.port = x.port ∧ x.depart + 6 ≤ f.arrives ∧
      f.bytes = ((List.range 32).map fun i => s.mem.read (spadKey core (x.off + i))) ∧
      f.mtrx = x.mtrx ∧ (x.left ≤ 1 → (t.core core).phase = some { p with sends := xs }) ∧
      let rest : Sending := { x with
        depart := x.depart + 1, left := x.left - 1, off := x.off + 32, mtrx := x.mtrx.map fun m => (m.1, m.2 + 1) }
      (1 < x.left → (t.core core).phase = some { p with sends := rest :: xs })) ∧
  (∀ (s : State) (core index : Nat) (f : Flit), (s.flits.filter fun f => f.dst == core && !f.notice)[index]? = some f →
    (∀ c ∈ s.phaseClocks, f.arrives ≤ c) → (∀ c ∈ s.departures, f.arrives < c) → (∀ c ∈ s.arrivals, f.arrives ≤ c) →
    f.arrives ≤ s.time → Memory.wf s.mem = true →
    (∀ p w place, (s.core core).phase = some p → p.windows = [w] → f.lostAt = none → f.bytes.length = 32 →
      (f.mtrx = none ∧ place = w.got ∨ ∃ i k n, f.mtrx = some (i, k) ∧ w.frag = some n ∧ place = n * i + k) →
      let o := s.phaseOffset core p.t0 f.arrives
      (w.port ≠ f.port ∨ w.closed = true ∨ o < w.opens ∨ min (w.opens + w.width) (2 ^ 20) ≤ o ∨ w.cap ≤ place →
        ∃ t, exec (.flitArrival core index) s = .next t ∧ SameRegs s t ∧ t.mem = s.mem ∧
          t.flits = s.flits.filter (fun g => g != f) ∧ (t.slot p.slot).sys.chkint = (s.slot p.slot).sys.chkint ||| 0x20) ∧
      (w.port = f.port → w.closed = false → w.opens ≤ o → o < min (w.opens + w.width) (2 ^ 20) → place < w.cap →
      s.isLost (spadKey core (w.base + 32 * place)) = false →
      ∃ t, exec (.flitArrival core index) s = .next t ∧ SameRegs s t ∧ t.flits = s.flits.filter (fun g => g != f) ∧
        (t.core core).phase = some { p with windows := [{ w with got := w.got + 1 }], got := p.got + 1 } ∧
        let k := spadKey core (w.base + 32 * place)
        (∀ i < 32, t.mem.read (k + i) = f.bytes.getD i 0) ∧
        ∀ y, (∀ i < 32, y ≠ k + i) → t.mem.read y = s.mem.read y)) ∧
    (∀ p, (s.core core).phase = some p → f.lostAt = none → p.windows = [] →
      ∃ t, exec (.flitArrival core index) s = .next t ∧ SameRegs s t ∧ t.mem = s.mem ∧
        t.flits = s.flits.filter (fun g => g != f) ∧ (t.slot p.slot).sys.chkint = (s.slot p.slot).sys.chkint ||| 0x20) ∧
    (∀ p, (s.core core).phase = some p → f.lostAt ≠ none →
      ∃ t, exec (.flitArrival core index) s = .next t ∧ SameRegs s t ∧ t.mem = s.mem ∧
        t.flits = s.flits.filter (fun g => g != f) ∧ (t.slot p.slot).sys.chkint = (s.slot p.slot).sys.chkint ||| 0x10) ∧
    ((s.core core).phase = none → f.lostAt ≠ none → exec (.flitArrival core index) s =
      .next { s with flits := s.flits.filter fun g => g != f }) ∧
    ((s.core core).phase = none → f.lostAt = none → exec (.flitArrival core index) s =
      .next { s with flits := s.flits.map fun g => if g = f then { g with notice := true } else g })) ∧
  (∀ (s : State) (core : Nat) (f : Flit), s.flits.find? (fun f => f.notice && coreOf f.src == core) = some f →
    (f.orphan = false → ∃ t, exec (.dropNotice core) s = .next t ∧ SameRegs s t ∧ t.mem = s.mem ∧
      t.flits = s.flits.filter (fun g => g != f) ∧ (t.slot f.src).sys.chkint = (s.slot f.src).sys.chkint ||| 0x20) ∧
    (f.orphan = true → exec (.dropNotice core) s = .next { s with flits := s.flits.filter fun g => g != f })) ∧
  (∀ (s : State) (core : Nat) (p : Phase) (w : Window), (s.core core).phase = some p → p.windows = [w] →
    let stops := s.phaseTime core p.t0 (min (w.opens + w.width) (2 ^ 20))
    (∀ c ∈ s.phaseClocks ++ s.departures ++ s.arrivals, stops ≤ c) → stops ≤ s.time →
    ∃ t, exec (.trecvWindowClose core 0) s = .next t ∧ t.slots = s.slots ∧ t.mem = s.mem ∧
      (t.core core).phase = some { p with windows := [{ w with closed := true }] }) ∧
  (∀ (s : State) (p : Phase), (s.core (coreOf p.slot)).phase = some p →
    (p.sends ≠ [] ∨ p.ending = true → exec (.phaseLimit p.slot) s = .next s) ∧
    (p.ending = false → 2 ^ 20 ≤ s.phaseOffset (coreOf p.slot) p.t0 s.time → s.phaseTime (coreOf p.slot) p.t0 (2 ^ 20) ≤ s.time →
    (∀ c ∈ s.phaseClocks ++ s.departures ++ s.arrivals, s.phaseTime (coreOf p.slot) p.t0 (2 ^ 20) ≤ c) → p.sends = [] →
    ∃ t, exec (.phaseLimit p.slot) s = .next t ∧ SameRegs s t ∧ t.mem = s.mem ∧ (t.core (coreOf p.slot)).phase = none ∧
      (t.slot p.slot).sys.chkint = (s.slot p.slot).sys.chkint ||| 0x40))

/-! ## Matrix engines (R301 to R320) and mask engines (R140 to R153, R321 to R329) -/

/-- R303, R309 to R311, R314 to R320: MQ raises ILLEGAL with the inbox off and for a descriptor whose kind, types or
accumulator tile do not fit; with 16 jobs of the core it gives 0, else it queues the descriptor with GEOM and its tile,
released two cycles on, and gives the job's number. MPOLL gives 0 to 3 and MWAIT sleeps while the job is in flight. A
block's engine starts its only job once it is released, and ends it with a record of kind 4, which a killed task's job does
not post. A DENSE job of F32 operands that does not accumulate leaves in each cell its row of A times its column of B,
summed from zero, DF64 so in cell pairs, and SPMM and SPMMT with the weights of the handle's tiles, rows or columns, for A.
SDDMM adds to the GAB element of a live entry the sum of its row and column; DSAMP gives an empty selector with room every
position that is not live and whose gradient is a number other than zero. That an engine's operands are read as its job
completes, and that the descriptor is copied at MQ, is the model's choice (log 45). ACCLD and ACCST move
FP32 cells of the issuer's own rows to and from its scratchpad, between two chunks of a job that runs there, stall the core
as R320 counts, and touch nothing else. -/
def Obligations.MatrixJobs : Prop :=
  (∀ (s : State) (d a : SReg), s.me.inboxOn = false → Traps (.mq d a) s 0x01 0 s.ir) ∧
  (∀ (s : State) (d a : SReg) (w o : Nat), s.me.inboxOn = true → s.localAt (s.rs a) w o → (s.rs a).toNat % 64 = 0 →
    o + 64 ≤ 2 ^ 17 → s.me.permits [3] o 64 = true →
    let r := s.spadBytes o 64
    let own := s.jobs.filter fun j => coreOf j.slot == coreOf s.cur
    (jobOk r = false → Traps (.mq d a) s 0x01 0 s.ir) ∧
    (jobOk r = true → 1 ≤ jobKind r → jobKind r ≤ 4 → s.sparseOk r = false →
      Traps (.mq d a) s 0x08 0 (BitVec.ofNat 64 (recNat 0x38 8 r))) ∧
    (jobOk r = true → (jobKind r = 0 ∨ jobKind r = 5 ∨ s.sparseOk r = true) →
      (∀ ti tj, s.me.tileOf (recNat 8 4 r) = some (ti, tj) → s.checkPanels (s.rs a) r s.me.sys.geom ti tj = .ok ()) →
      (16 ≤ own.length → ∃ t c, exec (.mq d a) s = .next t ∧ SameRegs s t ∧ t.mem = s.mem ∧ t.jobs = s.jobs ∧
        s.stallsFor (List.range' o 64) c ∧ t.me.flight = s.me.flight ++ stalled c ++ sres 1 d 0) ∧
      (own.length < 16 → ∃ (t : State) (j : Job) (c : Nat), exec (.mq d a) s = .next t ∧ SameRegs s t ∧ t.jobs = s.jobs ++ [j] ∧
        s.stallsFor (List.range' o 64) c ∧
        (jobKind r = 0 ∨ jobKind r = 5 → t.mem = s.mem ∧ j.ldesc = [] ∧ j.fault = none) ∧
        (jobKind r ≠ 0 → jobKind r ≠ 5 →
          let l := recNat 0x38 8 r / 2 ^ 20 % 2 ^ 12
          let ld := s.jobDesc l (s.curPart.descAddr l)
          t.mem = ld.2.2.2.mem ∧ j.ldesc = ld.1 ∧ j.fault = ld.2.1) ∧
        j.due = t.myCore.now + 2 ∧ j.group = s.me.group ∧ j.begun = false ∧ j.chunks = 0 ∧ j.orphan = false ∧
        j.slot = s.cur ∧ j.desc = r ∧ j.geom = s.me.sys.geom ∧ j.tile = s.me.tileOf (recNat 8 4 r) ∧
        j.running = false ∧ 0 < j.id ∧ j.id < 2 ^ 32 ∧ t.me.counters.jobId = j.id ∧
        t.me.flight = s.me.flight ++ stalled c ++ sres 1 d (BitVec.ofNat 64 j.id)))) ∧
  (∀ (s : State) (d a : SReg),
    let id := (s.rs a).toNat % 2 ^ 32
    let late := id = 0 ∨ 2 ^ 31 ≤ (s.me.counters.jobId + 2 ^ 32 - id) % 2 ^ 32
    (late → Completes (.mpoll d a) s (sres 1 d 0) ∧ exec (.mwait a) s = .next s) ∧
    (∀ j, ¬ late → s.jobOf s.cur id = some j → Completes (.mpoll d a) s (sres 1 d (if j.running then 2 else 1)) ∧
      exec (.mwait a) s =
        .next { s.setSlot s.cur { s.me with status := .asleep, cond := .job id } with flow := .held }) ∧
    (¬ late → s.jobOf s.cur id = none → Completes (.mpoll d a) s (sres 1 d 3) ∧ exec (.mwait a) s = .next s)) ∧
  (∀ (s : State) (lcol : Nat) (j : Job), s.blockJobs lcol = [j] → s.stillOut (lcol * 32) = false → j.running = false →
    (lookup Engine.reset s.engines lcol).core < 8 →
    (s.time < j.due → exec (.jobStart lcol) s = .next s) ∧
    (j.due ≤ s.time → ∃ t, exec (.jobStart lcol) s = .next t ∧ t.mem = s.mem ∧ t.slots = s.slots ∧
      t.jobs = s.jobs.map fun x => if x = j then { x with running := true } else x)) ∧
  (∀ (s u : State) (lcol : Nat) (j : Job) (x : Done), s.blockJobs lcol = [j] → s.stillOut j.slot = false →
    j.running = true → j.run s = some (u, x) → x.fault = 0 →
    (j.orphan = true → ∃ t, exec (.jobCompletion lcol) s = .next t ∧ t.mem = u.mem ∧
      t.jobs = u.jobs.filter (fun y => !(y.slot == j.slot && y.id == j.id))) ∧
    (j.tile = none → j.orphan = false → (s.slot j.slot).inboxOn = true → (s.slot j.slot).spilled = [] →
      32 ≤ (s.slot j.slot).ringSize - (s.slot j.slot).ringHeld → Memory.wf s.mem = true →
      (∀ c, s.isLost (s.ringKey j.slot c) = false) →
      ∃ t, exec (.jobCompletion lcol) s = .next t ∧ SameRegs s t ∧
        t.jobs = s.jobs.filter (fun y => !(y.slot == j.slot && y.id == j.id)) ∧
        let c := (s.slot j.slot).ringTail
        t.mem.read (s.ringKey j.slot c) = 4 ∧ t.mem.read (s.ringKey j.slot (c + 1)) = 1 ∧
        ∀ i < 4, t.mem.read (s.ringKey j.slot (c + 4 + i)) = BitVec.ofNat 8 (j.id / 2 ^ (8 * i)))) ∧
  (∀ (s : State) (lcol ti tj : Nat) (j : Job), s.RunsAlone lcol ti tj j → jobFlags j.desc % 4 = 0 →
    let vm := validRows j.geom ti
    let vn := validCols j.geom tj
    let ks := List.range (geomK j.geom)
    let cell := fun (i n : Nat) => accKey lcol ((32 * coreNo j.slot + i) * 1024 + 4 * (32 * jobTile j.desc + n))
    let pn := s.partNoOf j.slot
    let h := BitVec.ofNat 64 (recNat 0x38 8 j.desc)
    let d := Desc.read j.ldesc
    let other := fun (k : Nat) => ∀ o < 2 ^ 17, k ≠ spadKey (coreOf j.slot) o
    (jobKind j.desc = 0 → jobA j.desc = 1 → jobB j.desc = 1 → ∃ t, exec (.jobCompletion lcol) s = .next t ∧
      s.JobDone t ti tj 0 j ∧ ∀ i < vm, ∀ n < vn, t.mem.num (cell i n) 4 =
        (accumulate 0 (ks.map fun x => (fmtF32.decode (j.aNum s 4 i x), fmtF32.decode (j.bNum s 4 n x)))).1) ∧
    (jobKind j.desc = 5 → jobA j.desc = 0 → jobB j.desc = 0 → jobTile j.desc % 2 = 0 →
      ∃ t, exec (.jobCompletion lcol) s = .next t ∧ s.JobDone t ti tj 0 j ∧ ∀ i < vm, ∀ n < vn,
        t.mem.num (cell i (2 * n)) 8 = (accumulateF64 (modeOf (jobFlags j.desc / 4 % 8)) 0
          (ks.map fun x => (fmtF64.decode (j.aNum s 8 i x), fmtF64.decode (j.bNum s 8 n x)))).1) ∧
    (∀ (tiles : List (List Conn)) (e : EngState), jobKind j.desc = 1 ∨ jobKind j.desc = 2 → jobB j.desc = 2 →
      j.ldesc ≠ [] → s.engine pn (j.tiles pn h d ti) = .ok (tiles, e) →
      let weight := fun (i x : Nat) => (((tiles.getD (x / 32) []).find? fun c =>
        c.pos == if jobKind j.desc = 2 then 32 * (x % 32) + i else 32 * i + x % 32).map (·.value)).getD 0
      ∃ t, exec (.jobCompletion lcol) s = .next t ∧ s.JobDone t ti tj 0 j ∧ ∀ i < vm, ∀ n < vn, t.mem.num (cell i n) 4 =
        (accumulate 0 (ks.map fun x => (fmtBF16.decode (weight i x), fmtBF16.decode (j.bNum s 2 n x)))).1) ∧
    (∀ (c : Conn) (e u : EngState) (f : BitVec 7), jobKind j.desc = 3 → jobA j.desc = 2 → jobB j.desc = 2 →
      j.ldesc ≠ [] → s.engine pn (Eng.handleTile pn d h ti tj) = .ok ([c], e) → c.pos / 32 < vm → c.pos % 32 < vn →
      e.st.engine pn (Eng.addGrad pn (j.writer s) d c.rid (j.gradAt s (c.pos / 32) (c.pos % 32))
        (BitVec.ofNat 8 (recNat 5 1 j.desc)).toInt) = .ok (f, u) →
      ∃ t, exec (.jobCompletion lcol) s = .next t ∧ s.JobDone t ti tj 1 j ∧
        ∀ k, other k → t.mem.read k = u.st.mem.read k) ∧
    (∀ (cs : List Conn) (e : EngState), jobKind j.desc = 4 → jobA j.desc = 2 → jobB j.desc = 2 → j.ldesc ≠ [] →
      s.engine pn (Eng.handleTile pn d h ti tj) = .ok (cs, e) → 32 * tj + vn ≤ d.cols →
      let l := recNat 0x38 8 j.desc / 2 ^ 20 % 2 ^ 12
      let takes := fun (k f : Nat) => ∃ i < vm, ∃ n < vn, (∀ c ∈ cs, c.pos ≠ 32 * i + n) ∧ k = j.gradAt s i n % 2 ^ 31 ∧
        1 ≤ k ∧ k ≤ 0x7F800000 ∧ f = (32 * ti + i) * d.cols + 32 * tj + n
      ∀ p, e.st.part? pn = some p → (p.layer l).selector (d.partOf ti) = Selector.reset → vm * vn ≤ recNat 0x24 4 j.desc →
        ∃ (t : State) (made : Nat), exec (.jobCompletion lcol) s = .next t ∧ s.JobDone t ti tj made j ∧
          let x := (t.layer pn l).selector (d.partOf ti)
          (∀ k f, (k, f) ∈ x.cands ↔ takes k f) ∧ x.cands.length = made ∧
          (made ≠ 0 → x.mode = jobTile j.desc ∧ x.d = recNat 0x24 4 j.desc ∧ x.mixed = false))) ∧
  (∀ (s : State) (a b : SReg) (ty : BitVec 3) (rm : Rm),
    (∀ code detail va, s.checkMove (s.rs a) (s.rs b) ty.toNat [4] = .error (code, detail, va) →
      Traps (.accld a b ty rm) s code detail va) ∧
    (∀ code detail va, s.checkMove (s.rs a) (s.rs b) ty.toNat [3] = .error (code, detail, va) →
      Traps (.accst a b ty rm) s code detail va)) ∧
  (∀ (s : State) (a b : SReg) (ty : BitVec 3) (rm : Rm) (o : Nat), Memory.wf s.mem = true → lcolOf s.cur ∉ s.mc.unplaced →
    let c := CellRange.read (s.rs b)
    let row := fun (j : Nat) => accKey (lcolOf s.cur) (c.row * 1024 + 4 * (c.cell + j))
    let paused := s.betweenChunks fun j => coreOf j.slot == coreOf s.cur
    let stall := c.rows * ((c.cells * 4 + 63) / 64) - 1
    ((∀ j ∈ s.jobs, j.running = true → coreOf j.slot ≠ coreOf s.cur) → paused false = s ∧ paused true = s) ∧
    (s.checkMove (s.rs a) (s.rs b) ty.toNat [4] = .ok o → ∃ (t : State) (fl : BitVec 7), exec (.accld a b ty rm) s = .next t ∧ SameRegs s t ∧
      t.flow = s.flow ∧ t.me.flight = s.me.flight ++ fres 1 fl ∧ t.myCore.now = s.myCore.now + stall ∧
      (ty = 0 → c.rows = 1 → fl = 0 ∧ ∀ j < c.cells, ∀ i < 4,
        t.mem.read (s.ownKey (o + 4 * j + i)) = (paused false).mem.read (row j + i)) ∧
      ∀ k, (∀ p ∈ c.places s.cur o ty.toNat, ∀ i < moveSize ty.toNat, k ≠ s.ownKey p.1 + i) →
        t.mem.read k = (paused false).mem.read k) ∧
    (s.checkMove (s.rs a) (s.rs b) ty.toNat [3] = .ok o → ∃ (t : State) (fl : BitVec 7), exec (.accst a b ty rm) s = .next t ∧ SameRegs s t ∧
      t.flow = s.flow ∧ t.me.flight = s.me.flight ++ fres 1 fl ∧ t.myCore.now = s.myCore.now + stall ∧
      (ty = 0 → c.rows = 1 → fl = 0 ∧ ∀ j < c.cells, ∀ i < 4, t.mem.read (row j + i) = s.ownByte (o + 4 * j + i)) ∧
      ∀ k, (∀ p ∈ c.places s.cur o ty.toNat, ∀ i < (if ty = 6 then 8 else 4), k ≠ p.2 + i) →
        t.mem.read k = (paused true).mem.read k))

/-- R141 to R145, R153, R321 to R328: MBIND of an enabled layer with a CURRENT version gives its handle and binds it
once more, and of another, or of one bound 65,535 times, raises VERSION; where the page of the layer's descriptor
refuses it traps, and behind a migrating one it sleeps; MVER reports the ring; from a lost home column both complete
with poison; MUNBIND of a bound handle binds it once less, and of an invalid one raises VERSION; MRESET raises PRIV
at task level and else marks the layer, sleeping while work of it is under way. MUPD and MHIST raise ILLEGAL with
the inbox off, give 0 with 16 requests of the core in flight, and else queue a request, with the layer's descriptor
as it stands then (log 72), and give its number. An engine stalls while the descriptor's page migrates, ends a request of
a killed task without a record, and one of a layer that is not enabled with a record of kind 5 and status 5. A share of an
update drops D connections of each row, D of the layer, or those below its threshold and the first of those at it, by
ascending weight; it regrows of the candidates that are not live as many, or those above its threshold, by descending key;
its record counts what it dropped, regrew and lacked free RIDs for. A histogram counts at the issuer's scratchpad the drop
keys of the CURRENT version or the candidates' keys whose prefix matches, bin by bin, and its record how many. A slot to
which nothing is owed stays as it is; one that is RETIRED, or given up, becomes FREE where no record is left to clean. A
share's requests and retries run as the model's choice has it (log 46). -/
def Obligations.MaskLayers : Prop :=
  (∀ (s : State) (d a : SReg) (desc : Desc) (e : EngState) (p : Part),
    let l := (s.rs a).toNat % 2 ^ 12
    let va := s.curPart.descAddr l
    let read := s.engine s.myPart (Eng.desc s.myPart l va)
    (s.homeLost l = true → ∀ i ∈ [Instr.mbind d a, .mver d a], ∃ t v, exec i s = .next t ∧ SameRegs s t ∧ t.mem = s.mem ∧
      t.flow = .answered ∧ t.me.sys.chkint.getLsbD 1 = true ∧ t.me.flight = s.me.flight ++ sres 2 d v) ∧
    (s.homeLost l = false →
      (∀ u, read = .error (none, u) → exec (.mbind d a) s =
        .next ({ s.setSlot s.cur { s.me with status := .asleep, cond := .migration va } with flow := .slept }.enqueue s.cur va)) ∧
      (∀ u code detail, read = .error (some 1, u) → s.pageAnswer va .load = .trap code detail →
        Traps (.mbind d a) s code detail va) ∧
      (∀ u, read = .error (some 2, u) → Traps (.mbind d a) s 0x04 0 va)) ∧
    (s.homeLost l = false → read = .ok (desc, e) → e.st.part? s.myPart = some p →
    let y := e.st.layer s.myPart l
    (desc.en = false ∨ s.descOk desc = false ∨ y.find .current = none ∨
      (∃ q, y.find .current = some q ∧ (y.slot q).bound = 65535) → Traps (.mbind d a) s 0x08 0 (BitVec.ofNat 64 l)) ∧
    (∀ q, desc.en = true → s.descOk desc = true → y.find .current = some q → (y.slot q).bound < 65535 →
      ∃ t, exec (.mbind d a) s = .next t ∧ t.flow = .answered ∧ SameRegs s t ∧ t.mem = e.st.mem ∧
        t.me.flight = s.me.flight ++ sres 2 d (BitVec.ofNat 64 ((y.slot q).ver * 2 ^ 32 + l * 2 ^ 20 + q * 2 ^ 18)) ∧
        ((t.layer s.myPart l).slot q).bound = (y.slot q).bound + 1))) ∧
  (∀ (s : State) (d a : SReg),
    let y := s.layer s.myPart ((s.rs a).toNat % 2 ^ 12)
    s.homeLost ((s.rs a).toNat % 2 ^ 12) = false → (∀ q < 4, (y.slot q).bound < 2 ^ 16 ∧ (y.slot q).ver < 2 ^ 32) →
    ∃ (t : State) (v : Word), exec (.mver d a) s = .next t ∧ t.flow = .answered ∧ SameRegs s t ∧ t.mem = s.mem ∧
      t.me.flight = s.me.flight ++ sres 2 d v ∧ (∀ q < 4, v.toNat / 2 ^ (3 * q) % 8 = (y.slot q).state.code) ∧
      v.getLsbD 15 = y.marked ∧ (y.find .current = none → v.toNat / 2 ^ 16 = 0) ∧
      ∀ q, y.find .current = some q → v.toNat / 2 ^ 32 = (y.slot q).ver ∧ v.toNat / 2 ^ 16 % 2 ^ 16 = (y.slot q).bound) ∧
  (∀ (s : State) (a : SReg) (p : Part), s.part? s.myPart = some p →
    let h := s.rs a
    let l := h.toNat / 2 ^ 20 % 2 ^ 12
    let q := h.toNat / 2 ^ 18 % 4
    let n := ((s.layer s.myPart l).slot q).bound
    s.homeLost l = false →
    (s.handleOk s.myPart h = false ∨ n = 0 → Traps (.munbind a) s 0x08 0 h) ∧
    (s.handleOk s.myPart h = true → n ≠ 0 → ∃ t, exec (.munbind a) s = .next t ∧ t.flow = .answered ∧ t.slots = s.slots ∧
      t.mem = s.mem ∧ ((t.layer s.myPart l).slot q).bound = n - 1)) ∧
  (∀ (s : State) (a : SReg) (desc : Desc) (e : EngState) (p : Part),
    let l := (s.rs a).toNat % 2 ^ 12
    let marks := s.me.redo.map (·.cond) ≠ some (.layerIdle l)
    (s.me.sup = false → Traps (.mreset a) s 0x02 0 s.ir) ∧
    (s.me.sup = true → ¬ marks → exec (.mreset a) s = .next (if s.layerBusy s.myPart l then
      { s.setSlot s.cur { s.me with status := .asleep, cond := .layerIdle l } with flow := .slept }
      else { s with flow := .answered })) ∧
    (s.me.sup = true → marks → s.homeLost l = false →
      s.engine s.myPart (Eng.desc s.myPart l (s.curPart.descAddr l)) = .ok (desc, e) →
      e.st.part? s.myPart = some p → (e.st.parts.map (·.1)).Pairwise (· < ·) →
      ∃ t, exec (.mreset a) s = .next t ∧ SameRegs s t ∧ t.mem = e.st.mem ∧
      (t.layer s.myPart l).marked = true ∧ (e.st.layerBusy s.myPart l = false → t.flow = .answered) ∧
      (e.st.layerBusy s.myPart l = true → t.flow = .slept ∧ t.me.status = .asleep ∧ t.me.cond = .layerIdle l))) ∧
  (∀ (s : State) (d a : SReg), s.me.inboxOn = false →
    Traps (.mupd d a) s 0x01 0 s.ir ∧ Traps (.mhist d a) s 0x01 0 s.ir) ∧
  (∀ (s : State) (d a : SReg) (w o : Nat), s.me.inboxOn = true → s.localAt (s.rs a) w o → (s.rs a).toNat % 32 = 0 →
    o + 32 ≤ 2 ^ 17 → s.me.permits [3] o 32 = true →
    let r := s.spadBytes o 32
    let own := s.masks.filter fun r => coreOf r.slot == coreOf s.cur
    let level := recNat 5 1 r
    let out := BitVec.ofNat 64 (recNat 0x10 8 r)
    let l := recNat 0 2 r % 4096
    let read := s.readDesc l (s.curPart.descAddr l)
    (1 < recNat 4 1 r ∨ 2 < level → Traps (.mhist d a) s 0x01 0 s.ir) ∧
    ∀ p ∈ ([(.mupd d a, false), (.mhist d a, true)] : List (Instr × Bool)),
      (p.2 = true → recNat 4 1 r ≤ 1 ∧ level ≤ 2 ∧ out.toNat % 64 = 0 ∧ ∃ v q, s.localAt out v q ∧
        q + histBytes level ≤ 2 ^ 17 ∧ s.me.permits [4] q (histBytes level) = true) →
      (16 ≤ own.length → ∃ t c, exec p.1 s = .next t ∧ SameRegs s t ∧ t.mem = s.mem ∧ t.masks = s.masks ∧
        s.stallsFor (List.range' o 32) c ∧ t.me.flight = s.me.flight ++ stalled c ++ sres 1 d 0) ∧
      (own.length < 16 → ∃ (t : State) (m : MaskReq) (c : Nat), exec p.1 s = .next t ∧ SameRegs s t ∧
        t.mem = read.2.2.mem ∧ s.stallsFor (List.range' o 32) c ∧ m.due = t.myCore.now + 2 ∧
        t.masks = s.masks ++ [m] ∧ m.ldesc = read.1 ∧ m.fault = read.2.1 ∧ m.deferred = (s.layer s.myPart l).marked ∧
        m.group = s.me.group ∧ m.orphan = false ∧ m.slot = s.cur ∧ m.desc = r ∧ m.hist = p.2 ∧
        0 < m.id ∧ m.id < 2 ^ 32 ∧ t.me.counters.reqId = m.id ∧
        t.me.flight = s.me.flight ++ stalled c ++ sres 1 d (BitVec.ofNat 64 m.id))) ∧
  (∀ (s u : State) (r : MaskReq) (x : Share), s.maskOf r.slot r.id = some r → s.isNext r = true → r.orphan = true → x.gone = [] →
    (r.hist = false → s.serveUpdate r = some (u, x) → exec (.maskShareCompletion r.slot r.id) s =
      .next { u with masks := u.masks.filter fun y => !(y.slot == r.slot && y.id == r.id) }) ∧
    (r.hist = true → s.serveHist r = some (u, x) → exec (.mhistCompletion r.slot r.id) s =
      .next { u with masks := u.masks.filter fun y => !(y.slot == r.slot && y.id == r.id) })) ∧
  (∀ (s : State) (r : MaskReq), s.maskOf r.slot r.id = some r →
    let i := if r.hist then Instr.mhistCompletion r.slot r.id else .maskShareCompletion r.slot r.id
    let read := s.requestDesc (s.partNoOf r.slot) r
    (s.isNext r = false ∨ (∃ u, read = .error (none, u)) → exec i s = .next s) ∧
    ∀ (desc : Desc) (u : State), s.isNext r = true → r.orphan = false → read = .ok (desc, u) →
    desc.en = false → (u.slot r.slot).inboxOn = true → (u.slot r.slot).spilled = [] → u.isOut r.slot = false →
    32 ≤ (u.slot r.slot).ringSize - (u.slot r.slot).ringHeld → Memory.wf u.mem = true →
    (∀ c, u.isLost (u.ringKey r.slot c) = false) →
    ∃ t, exec i s = .next t ∧
      t.masks = u.masks.filter (fun y => !(y.slot == r.slot && y.id == r.id)) ∧
      let c := (u.slot r.slot).ringTail
      t.mem.read (u.ringKey r.slot c) = 5 ∧ t.mem.read (u.ringKey r.slot (c + 1)) = 5) ∧
  (∀ (s u v : State) (r : MaskReq) (d : Desc) (c q : Nat) (ws : List (Nat × Nat)) (e f : EngState) (dr gr sh : Nat),
    let pn := s.partNoOf r.slot
    let y := u.layer pn r.layer
    let x := r.params
    let z := v.layer pn r.layer
    let cands := (z.selector r.part).cands
    s.maskOf r.slot r.id = some r → s.isNext r = true → r.hist = false → r.deferred = false →
    s.requestDesc pn r = .ok (d, u) → d.en = true → u.descOk d = true → y.paramsOk d r.part x = true →
    (y.enter r.part d.nparts = .joins q ∧ (y.slot q).clearing = [] ∧ y.install = false ∧ v = u ∨
      y.enter r.part d.nparts = .starts q ∧ v = u.modLayer pn r.layer fun y => y.build q false) →
    z.find .current = some c → v.engine pn (Eng.weights pn d r.part c (z.slot c).ver) = .ok (ws, e) →
    (ws.map (·.2)).Nodup →
    v.engine pn (Eng.share pn d r.part c q (z.slot c).ver (z.slot q).ver x cands) = .ok (some (dr, gr, sh), f) →
    Memory.wf s.mem = true → (r.orphan = true ∨ s.inboxTakes r.slot) →
    ∃ (t : State) (drops grows : List Nat), exec (.maskShareCompletion r.slot r.id) s = .next t ∧
      s.MaskDone t r 0 (z.slot q).ver dr gr sh ∧ dr = drops.length ∧ gr + sh = grows.length ∧
      let keys := ws.map fun w => (dropOf w.1, w.2)
      let free := cands.filter fun a => !(ws.map (·.2)).contains a.2
      let sameRow := fun (a b : Nat × Nat) => a.2 / d.cols == b.2 / d.cols
      drops.Nodup ∧ (∀ i, i ∈ drops ↔ ∃ a ∈ keys, a.2 = i ∧
        (x.mode = 0 → ∀ l : List (Nat × Nat), l.Nodup → (∀ b ∈ l, b ∈ keys ∧ sameRow b a = true ∧ sooner b a) → l.length < x.d) ∧
        (x.mode ≠ 0 → d.nparts = 1 → ∀ l : List (Nat × Nat), l.Nodup → (∀ b ∈ l, b ∈ keys ∧ sooner b a) → l.length < x.d) ∧
        (x.mode ≠ 0 → d.nparts ≠ 1 → a.1 < x.td ∨ a.1 = x.td ∧
          ∀ l : List (Nat × Nat), l.Nodup → (∀ b ∈ l, b ∈ keys ∧ b.1 = a.1 ∧ b.2 < a.2) → l.length < x.qd)) ∧
      ((free.map (·.2)).Nodup → grows.Nodup ∧ ∀ i, i ∈ grows ↔ ∃ a ∈ free, a.2 = i ∧
        (x.mode = 0 → ∀ l : List (Nat × Nat), l.Nodup → (∀ b ∈ l, b ∈ free ∧ sameRow b a = true ∧ better b a) →
          l.length < countOf drops fun j => j / d.cols == i / d.cols) ∧
        (x.mode ≠ 0 → d.nparts = 1 → ∀ l : List (Nat × Nat), l.Nodup → (∀ b ∈ l, b ∈ free ∧ better b a) →
          l.length < drops.length) ∧
        (x.mode ≠ 0 → d.nparts ≠ 1 → x.tg < a.1 ∨ a.1 = x.tg ∧
          ∀ l : List (Nat × Nat), l.Nodup → (∀ b ∈ l, b ∈ free ∧ b.1 = a.1 ∧ b.2 < a.2) → l.length < x.qg))) ∧
  (∀ (s u : State) (r : MaskReq) (d : Desc) (keys : List Nat) (ws : List (Nat × Nat)) (c : Nat) (e : EngState),
    let pn := s.partNoOf r.slot
    let y := u.layer pn r.layer
    let level := recNat 5 1 r.desc
    let pre := recNat 8 4 r.desc
    let o := recNat 0x10 8 r.desc % 2 ^ 17
    let n := histBytes level
    let key := fun (x : Nat) => spadKey (coreOf r.slot) (o + x)
    s.maskOf r.slot r.id = some r → s.isNext r = true → r.hist = true → r.deferred = false →
    s.requestDesc pn r = .ok (d, u) → d.en = true → u.descOk d = true → r.part < d.nparts → level ≤ 2 →
    (recNat 4 1 r.desc = 1 ∧ keys = (y.selector r.part).cands.map (·.1) ∨
      recNat 4 1 r.desc = 0 ∧ y.find .current = some c ∧
        u.engine pn (Eng.weights pn d r.part c (y.slot c).ver) = .ok (ws, e) ∧ keys = ws.map fun w => dropOf w.1) →
    o + n ≤ 2 ^ 17 → s.isLost (key 0) = false → s.isOut r.slot = false → Memory.wf s.mem = true →
    (r.orphan = true ∨ s.inboxTakes r.slot ∧ ∀ i < 32, ∀ x < n, s.ringKey r.slot ((s.slot r.slot).ringTail + i) ≠ key x) →
    let bin := fun (k : Nat) => if level = 0 then k / 2 ^ 21 % 2048 else if level = 1 then k / 2 ^ 10 % 2048 else k % 1024
    let counts := fun (k : Nat) => level = 0 ∨ level = 1 ∧ k / 2 ^ 21 = pre ∨ level = 2 ∧ k / 2 ^ 10 = pre
    ∃ (t : State) (some_ : List Nat), exec (.mhistCompletion r.slot r.id) s = .next t ∧
      s.MaskDone t r 0 0 some_.length 0 0 ∧ List.Sublist some_ keys ∧ (∀ k, k ∈ some_ ↔ k ∈ keys ∧ counts k) ∧
      (∀ k ∈ some_, countOf some_ (fun x => x == k) = countOf keys fun x => x == k) ∧
      ∀ b < n / 4, t.mem.num (key (4 * b)) 4 = min (countOf some_ fun k => bin k == b) (2 ^ 32 - 1)) ∧
  (∀ (s : State) (part : BitVec 4) (layer : BitVec 12) (q : BitVec 2) (p : Part), s.part? part.toNat = some p →
    let y := s.layer part.toNat layer.toNat
    let x := y.slot q.toNat
    ∀ i ∈ [Instr.retirementCleaned part layer q, .maskEngineRetry part layer q],
      (x.state ≠ .retired → x.clearing = [] → x.giveUp = false → exec i s = .next s) ∧
      ((x.state = .retired ∧ y.known.reccap = 0) ∨ (x.state ≠ .retired ∧ x.giveUp = true ∧ x.clearing = []) → ∃ t, exec i s = .next t ∧ t.mem = s.mem ∧
        t.slots = s.slots ∧ (t.layer part.toNat layer.toNat).slot q.toNat = RingSlot.reset))

/-! ## Tasks, groups and slots (R31 to R44, R219, R342, R347) -/

/-- R31, R40, R158, R161, R165, R219, R342, R347: GKILL raises ILLEGAL in a phase and PRIV at task level, writes 0 where
no live group has the id, and else kills the group: its slots are FREE, its token fails, and the issuer gets 1 or, in the
killed group, ends. TINV raises PRIV at task level, drops the kept leaves of its range and wakes what waits on a page there,
and sleeps until every entry accepted under a translation that it removes is home; a size of 0 drops nothing; TINV.ALL drops
them all. TEND sleeps until its phase is over and its entries are answered, takes a refused entry as cause 6, sleeps for its
own work, waits at the barrier as a member in error, and else frees its slot and counts its task, whose group is complete
with its last; error bits of a charged service task are carried to the charged group; the TEND of a QUAR handler kills the
group. -/
def Obligations.KillsInvalidationsAndEnds : Prop :=
  (∀ (s : State) (d a : SReg) (p : Part) (g : Group),
    let id := (s.rs a).toNat % 2 ^ 16
    s.part? s.myPart = some p →
    (s.inPhase = true → Traps (.gkill d a) s 0x01 0 s.ir) ∧
    (s.inPhase = false → s.me.sup = false → Traps (.gkill d a) s 0x02 0 s.ir) ∧
    (s.inPhase = false → s.me.sup = true → p.groups.find? (fun g => g.tgid == id) = none →
      Completes (.gkill d a) s (sres 1 d 0)) ∧
    (s.inPhase = false → s.me.sup = true → p.groups.find? (fun g => g.tgid == id) = some g →
      ∃ (t : State) (q : Part), exec (.gkill d a) s = .next t ∧ t.part? s.myPart = some q ∧
        (∀ x ∈ q.groups, x ∈ p.groups ∧ x.tgid ≠ id) ∧ (g.sig ≠ 0 → q.token g.sig = .failed) ∧
        (∀ k, (s.slot k).partNo = s.myPart → (s.slot k).tgid = id → (t.slot k).status = .free) ∧
        (id = s.me.tgid → t.flow = .ended) ∧
        (id ≠ s.me.tgid → (∀ x ∈ p.groups, x.waits = []) → (s.slots.map (·.1)).Pairwise (· < ·) →
          t.flow = .answered ∧ t.me.regs = s.me.regs ∧ t.me.pc = s.me.pc ∧ t.me.flight = s.me.flight ++ sres 2 d 1))) ∧
  (∀ (s : State) (a b : SReg),
    let base := (s.rs a).toNat % 2 ^ 42
    let meets := fun (p size : Nat) => decide (base < p + size) && decide (p < min (base + (s.rs b).toNat) (2 ^ 42))
    (s.me.sup = false → Traps (.tinv a b) s 0x02 0 s.ir ∧ Traps .tinvAll s 0x02 0 s.ir) ∧
    (s.me.sup = true → s.rs b = 0 → exec (.tinv a b) s = .next s) ∧
    ∀ x ∈ ([(.tinv a b, meets), (.tinvAll, fun _ _ => true)] : List (Instr × (Nat → Nat → Bool))),
      s.me.sup = true → (x.1 = .tinv a b → s.rs b ≠ 0) →
      (s.me.redo ≠ none → exec x.1 s = .next (if s.removedLeft s.myPart then
        { s.setSlot s.cur { s.me with status := .asleep, cond := .removed } with flow := .slept }
        else { s with flow := .answered })) ∧
      (s.me.redo = none → (s.slots.map (·.1)).Pairwise (· < ·) →
        let hit := fun (e : Entry) => !e.settled && e.pages.any fun p => x.2 p.1 p.2
        ∃ t, exec x.1 s = .next t ∧ t.mem = s.mem ∧
        (∀ k, (t.slot k).regs = (s.slot k).regs ∧ (t.slot k).pc = (s.slot k).pc ∧ (t.slot k).trap = (s.slot k).trap) ∧
        (∀ c, c ∈ t.tlb ↔ c ∈ s.tlb ∧ ¬ (c.part = s.myPart ∧ x.2 (c.page * 2 ^ c.size) (2 ^ c.size) = true)) ∧
        (∀ k, s.partNoOf k = s.myPart → (t.slot k).log.entries =
          (s.slot k).log.entries.map fun e => if hit e then { e with removed := true } else e) ∧
        (∀ k va, k ≠ s.cur → (s.slot k).status = .asleep → (s.slot k).cond = .migration va → s.partNoOf k = s.myPart →
          x.2 (va.toNat / 2 ^ 16 % 2 ^ 26 * 2 ^ 16) (2 ^ 16) = true →
          (t.slot k).status = .ready ∧ (t.slot k).cond = .none) ∧
        let left := ∃ k, s.partNoOf k = s.myPart ∧
          ∃ e ∈ (s.slot k).log.entries, e.settled = false ∧ (e.removed = true ∨ hit e = true)
        (left → t.flow = .slept ∧ t.me.status = .asleep ∧ t.me.cond = .removed) ∧ (¬ left → t.flow = .answered))) ∧
  (∀ s : State, (s.me.sup = true → s.me.quar = true → exec .tend s =
      .next { s.killGroup s.me.partNo s.me.tgid with flow := .ended }) ∧
    (∀ p, s.me.quar = false → s.myCore.phase = some p → p.slot = s.cur →
      s.phaseDone (coreOf s.cur) s.myCore.now = false → ∃ t, exec .tend s = .next t ∧ t.flow = .slept ∧ t.mem = s.mem ∧
        t.me = { s.me with status := .asleep, cond := .phase } ∧
        t.myCore = { s.myCore with phase := some { p with ending := true } })) ∧
  (∀ (s : State) (p : Part), s.part? s.myPart = some p → s.inPhase = false → s.me.flight = [] →
    (∀ e, s.me.quar = false → s.me.log.entries = [e] → e.unanswered = true → s.answerAll s.cur e.raw e.cells = none →
      ∃ t, exec .tend s = .next t ∧ t.flow = .slept ∧ t.mem = s.mem ∧
        t.me = { s.me with status := .asleep, cond := .release, log := t.me.log }) ∧
    (∀ e r, s.me.log.entries = [e] → e.state = .refused r → s.me.sup = false → p.trapvec.getLsbD 0 = true →
      ∃ t, exec .tend s = .next t ∧ t.flow = .trapped ∧ t.me.pc = p.trapvec &&& 0xFFFFFFFFFFFFFFF8 ∧
        t.me.trap = { s.me.trap with cause := BitVec.ofNat 64 (r * 2 ^ 8 + 6), pc := s.me.pc &&& 0xFFFFFFFFFFFFFFF8,
                                     addr := e.va, seq := BitVec.ofNat 64 e.seq, status := 1 }) ∧
    (s.me.log.entries = [] → s.me.quar = false →
      let ends := fun (P : State → Part → Prop) => ∃ (t : State) (q : Part), exec .tend s = .next t ∧ t.flow = .ended ∧
        t.me.status = .free ∧ t.me.task = none ∧ t.me.loops = [] ∧ t.mem = s.mem ∧ t.part? s.myPart = some q ∧ P t q
      (s.ownWork s.cur = true → ∃ t, exec .tend s = .next t ∧ t.flow = .slept ∧ t.me.regs = s.me.regs ∧
        t.me.status = .asleep ∧ t.me.cond = .work) ∧
      (s.ownWork s.cur = false → s.me.svc = false → s.me.sys.chkint.toNat / 2 % 2 ^ 6 ≠ 0 →
        ∃ t, exec .tend s = .next t ∧ t.flow = .slept ∧ t.me.regs = s.me.regs ∧ t.me.status = .asleep ∧
          t.me.cond = .barrier ∧ t.me.bar = .arrived false true) ∧
      (s.ownWork s.cur = false → (s.me.svc = true ∨ s.me.sys.chkint.toNat / 2 % 2 ^ 6 = 0) → s.me.partNo = s.myPart →
        (∀ c, s.me.svc = true → s.me.charge = some c → ends fun _ q =>
          (q.bar c).carried = (p.bar c).carried ||| (s.me.sys.chkint &&& 0x7E)) ∧
        ∀ g, p.groups.find? (fun g => g.tgid == s.me.tgid) = some g →
          (p.allStarted g = true → g.ended + 1 = g.total → ends fun _ q =>
            (∀ x ∈ q.groups, x.tgid ≠ s.me.tgid) ∧ (g.sig ≠ 0 → q.token g.sig = .done)) ∧
          (g.ended + 1 ≠ g.total → ends fun _ q =>
            q.groups.find? (fun g => g.tgid == s.me.tgid) = some { g with ended := g.ended + 1 }))))

/-- R31 to R34, R37 to R39, R42, R44, R47: a launch message whose checks fail is answered on the launch page with
its code; an accepted one queues its group under the next id and sets its token PENDING. A free slot takes the task
its launch queues offer it, with the task's start state and coordinates. A sleeper whose condition has come to hold
becomes READY, its core not before the wafer's time, and another stays, as all do while their partition is out or has yet
to resume; a
slot whose watchdog count has reached its period is switched out and counted, with the members of the gang that it
leads; and a FUSE whose time limit has passed wakes. -/
def Obligations.LaunchesStartsAndWakes : Prop :=
  (∀ (s : State) (part : BitVec 4) (p : Part), s.part? part.toNat = some p →
    (p.launches = [] ∨ p.out ≠ none → exec (.launchMessage part) s = .next s) ∧
    ∀ l rest, p.launches = l :: rest → p.out = none → l.sender = none →
      let m := LaunchMsg.read l.bytes
      let answered := fun (t : State) (code id : Nat) => let y := t.page? part.toNat
        y.busy = false ∧ y.valid = true ∧ recNat 0 1 y.record = 6 ∧ recNat 1 1 y.record = code ∧
        recNat 2 2 y.record = id ∧ recNat 4 4 y.record = m.tag
      (m.entry.toNat % 8 ≠ 0 → s.launchCode p m = 1) ∧
      (s.entryOk p m.entry = true → (24 < m.ext / 8 % 32 + 1 ∨ p.w < m.ext / 2 ^ 8 % 32 + 1 ∨
        p.h < (m.ext / 2 ^ 13 % 64 + 1) * (m.ext / 2 ^ 19 % 64 + 1)) → s.launchCode p m = 2) ∧
      (s.launchCode p m ≠ 0 → ∃ t, exec (.launchMessage part) s = .next t ∧ t.mem = s.mem ∧ t.slots = s.slots ∧
        answered t (s.launchCode p m) 0 ∧ t.part? part.toNat = some { p with launches := rest }) ∧
      (s.launchCode p m = 0 → (∀ g ∈ p.groups, g.tgid ≠ p.nextTgid) → p.nextTgid < 2 ^ 16 →
        (∀ w ∈ ([m.waita, m.waitb] : List Nat), w = 0 ∨ p.token w ≠ .failed) →
        ∃ (t : State) (q : Part) (g : Group), exec (.launchMessage part) s = .next t ∧ t.mem = s.mem ∧ t.slots = s.slots ∧
          answered t 0 p.nextTgid ∧ t.part? part.toNat = some q ∧ q.launches = rest ∧ q.groups = p.groups ++ [g] ∧
          q.nextTgid = (if p.nextTgid = 65535 then 1 else p.nextTgid + 1) ∧ (m.sig ≠ 0 → q.token m.sig = .pending) ∧
          g.tgid = p.nextTgid ∧ g.entry = m.entry ∧ g.args = m.args ∧ g.ext = m.ext ∧ g.sig = m.sig ∧ g.started = [] ∧
          g.ended = 0 ∧ ∀ w, w ∈ g.waits ↔ (w = m.waita ∨ w = m.waitb) ∧ w ≠ 0 ∧ p.token w = .pending)) ∧
  (∀ (s : State) (slot pn : Nat) (p : Part), s.partAt (slot / 32) = some (pn, p) → s.part? pn = some p →
    ((s.slot slot).status ≠ .free ∨ s.startFor p slot = none → exec (.taskStart slot) s = .next s) ∧
    ∀ g, s.startFor p slot = some g → g ∈ p.groups ∧ g.waits = [] ∧ (g.svc = true ↔ slot % 4 = 3) ∧
      ((s.slot slot).status = .free → p.out = none → s.mc.stopped = false → slot / 32 ∉ s.mc.unplaced →
        g.tgid < 2 ^ 16 → pn < 2 ^ 4 → ∃ t, exec (.taskStart slot) s = .next t ∧ t.mem = s.mem ∧
          (∀ k, k ≠ slot → t.slot k = s.slot k) ∧
          let u := t.slot slot
          u.status = .ready ∧ u.pc = g.entry &&& 0xFFFFFFFFFFFFFFF8 ∧ u.loops = [] ∧ u.sig = 0xFFFF ∧
          u.flight = (s.slot slot).flight.filter (fun f => f.what.isBlock) ∧
          u.sup = false ∧ u.sys.fpflags = 0 ∧ u.sys.chkint = 0 ∧ u.regs.sreg 1 = g.args ∧
          (∀ r : SReg, r ≠ 1 → u.regs.sreg r = 0) ∧ (∀ r : VReg, u.regs.vreg r = 0) ∧
          (∀ r : PReg, u.regs.preg r = (r == 0)) ∧ u.tgid = g.tgid ∧ u.partNo = pn ∧
          u.sys.coord.toNat / 2 ^ 42 % 4 = slot % 4 ∧ u.sys.coord.toNat / 2 ^ 27 % 2 ^ 15 = slot / 32 ∧
          u.sys.coord.toNat / 2 ^ 3 % 2 ^ 5 = slot / 32 % 24 ∧ u.sys.coord.toNat % 8 = slot / 4 % 8)) ∧
  (∀ (s : State) (slot : Nat),
    let x := s.slot slot
    let stays := exec (.slotWake slot) s = .next s
    let wakes := ∃ t, exec (.slotWake slot) s = .next t ∧ t.mem = s.mem ∧
      t.slot slot = { x with status := .ready, cond := .none } ∧ (∀ k, k ≠ slot → t.slot k = s.slot k) ∧
      let c := s.core (coreOf slot)
      ((c.phase = none ∨ ∃ p, c.phase = some p ∧ p.slot = slot) →
        t.core (coreOf slot) = { c with now := max c.now s.time }) ∧
      (∀ p, c.phase = some p → p.slot ≠ slot → t.core (coreOf slot) = c)
    (x.status ≠ .asleep ∨ s.stillOut slot = true → stays) ∧
    (x.status = .asleep → s.stillOut slot = false →
      (x.cond = .record → if x.ringHeld ≠ 0 ∨ x.inboxOn = false then wakes else stays) ∧
      (∀ id, x.cond = .job id → if s.jobState slot id = 0 ∨ s.jobState slot id = 3 then wakes else stays) ∧
      (x.cond = .work → if s.ownWork slot then stays else wakes) ∧
      (∀ g v, x.cond = .generation g v →
        let d := ((s.barOf (s.partNoOf slot) g).gen + 2 ^ 32 - v % 2 ^ 32) % 2 ^ 32
        if 1 ≤ d ∧ d ≤ 2 ^ 31 - 1 then wakes else stays) ∧
      (∀ w q, x.cond = .published w q → if reached (s.slot w).pub q ∨ w / 32 ∈ s.lost then wakes else stays) ∧
      (∀ l, x.cond = .layerIdle l → if s.layerBusy (s.partNoOf slot) l then stays else wakes) ∧
      (∀ due, x.cond = .answer due → if due ≤ s.time then wakes else stays) ∧
      (∀ f, x.cond = .flagSeen f → wakes) ∧
      (∀ key q, x.cond = .flagWord key q → if s.isLost key then wakes else stays) ∧
      (x.cond = .phase → if s.phaseDone (coreOf slot) (max (s.core (coreOf slot)).now s.time) then wakes else stays) ∧
      (x.cond = .entries → if (∀ e ∈ x.log.entries, e.unanswered = false) then wakes else stays) ∧
      (x.cond = .release → if (∀ e ∈ x.log.entries, e.unanswered = false) ∨ (∃ e ∈ x.log.entries, e.isRefused = true)
        then wakes else stays) ∧
      (x.cond = .logRoom → if (x.log.room 80).isSome then wakes else stays) ∧
      (∀ tok, x.cond = .fence tok → if (∀ e ∈ x.log.entries, e.before tok = true → e.settled = true)
        then wakes else stays) ∧
      (∀ f, x.cond = .lines f → if s.linesWait (coreOf slot) then stays else wakes) ∧
      (x.cond = .removed → if s.removedLeft (s.partNoOf slot) then stays else wakes) ∧
      (x.cond = .barrier ∨ (∃ va, x.cond = .migration va) ∨ (∃ m l, x.cond = .gang m l) → stays))) ∧
  (∀ (s : State) (slot : Nat),
    let x := s.slot slot
    let period := 2 ^ max 12 (min 30 (x.sys.slotcfg.toNat % 2 ^ 5))
    (x.wd < period → exec (.watchdogForcedSwitch slot) s = .next s) ∧
    (period ≤ x.wd → (∀ k ∈ s.ledBy slot, (s.slot k).flight = [] ∧ (s.core (coreOf k)).phase = none) →
      slot ∈ s.ledBy slot ∧ (s.gangless slot → s.ledBy slot = [slot]) ∧
      (∀ g ∈ s.gangs, g.members.head? = some slot → (∀ h ∈ s.gangs, h.members.head? = some slot → h = g) →
        s.ledBy slot = g.members) ∧
      ∃ t, exec (.watchdogForcedSwitch slot) s = .next t ∧ t.mem = s.mem ∧ SameRegs s t ∧
        (∀ k ∈ s.ledBy slot, (t.core (coreOf k)).issuing = none ∧ (t.slot k).wd = 0) ∧
        (∀ k, k ∉ s.ledBy slot → t.slot k = s.slot k) ∧
        (t.slot slot).sys.slotcfg.toNat / 2 ^ 32 = min (x.sys.slotcfg.toNat / 2 ^ 32 + 1) (2 ^ 32 - 1) ∧
        (t.slot slot).sys.slotcfg.toNat % 2 ^ 32 = x.sys.slotcfg.toNat % 2 ^ 32)) ∧
  (∀ (s : State) (slot m limit : Nat), (s.slot slot).status = .asleep → (s.slot slot).cond = .gang m limit →
    (s.time < limit ∨ s.stillOut slot = true → exec (.fuseTimeout slot) s = .next s) ∧
    (limit ≤ s.time → s.stillOut slot = false → ∃ t, exec (.fuseTimeout slot) s = .next t ∧ t.mem = s.mem ∧
      t.slot slot = { s.slot slot with status := .ready, cond := .none, fuseOut := true }))

/-! ## Reliability (R194, R427 to R433) -/

/-- R159, R194, R427, R429 to R433: a replay of a core that holds a task costs 7 cycles, is counted, and
poisons a participant; the count of consecutive ones at its limit raises the margin by two where the raise is automatic,
and the sixteenth takes it to offset 0; the 64th at offset 0 or in a communication phase in a period marks the core
failing; a mismatch that the MC is asked to force arms the core, and in a phase is refused (R384). A parity error sets
poison in the slot and in the lines of its data; a corrected error is only counted; an uncorrectable one poisons its line at
home, which is counted once, that of a view also in the view, that of a log entry where the entry goes, that of a release
cell for whoever acquires from it. A bus transfer that fails once or
twice is counted; the third failure loses its column with its logs and release cells, and in a partition without live
groups, or outside every partition (log 78), the column is quarantined: it moves to a spare block of its cluster, empty. -/
def Obligations.ReliabilityEvents : Prop :=
  (∀ (s : State) (core : Nat) (pc : Word),
    let c := s.core core
    let now := c.margin.toNat % 2 ^ 5
    let again := if c.consec ≠ 0 ∧ c.consecPc = pc then c.consec + 1 else 1
    let auto := again = max 1 (c.margin.toNat / 2 ^ 24 % 2 ^ 4) ∧ c.margin.getLsbD 31 = true
    let counted := if now = 0 ∨ c.phase ≠ none then (if c.period = s.periodOf core then c.atZero else 0) + 1
                   else if c.period = s.periodOf core then c.atZero else 0
    (exec (.replay core (true, pc)) s = .next (if c.phase ≠ none then s else s.setCore core { c with armed := some pc })) ∧
    (s.coreBusy core = false → exec (.replay core (false, pc)) s = .next s) ∧
    (s.coreBusy core = true → s.gangless (core * 4) → ∃ t, exec (.replay core (false, pc)) s = .next t ∧ t.mem = s.mem ∧
      SameRegs s t ∧
      let u := t.core core
      u.now = c.now + 7 ∧ u.replays.toNat % 2 ^ 32 = min (c.replays.toNat % 2 ^ 32 + 1) (2 ^ 32 - 1) ∧
      u.atZero = counted ∧ u.period = s.periodOf core ∧
      (c.failing = false → counted < 64 →
        u.failing = false ∧
        (auto → u.margin.toNat % 2 ^ 5 = now - 2 ∧ u.consec = 0) ∧
        (¬ auto → again = 16 → u.margin.toNat % 2 ^ 5 = 0 ∧ u.consec = 0) ∧
        (auto ∨ again = 16 → u.replays.toNat / 2 ^ 48 = min (c.replays.toNat / 2 ^ 48 + 1) (2 ^ 16 - 1)) ∧
        (¬ auto → again ≠ 16 → u.margin = c.margin ∧ u.consec = again ∧
          u.replays.toNat / 2 ^ 32 = c.replays.toNat / 2 ^ 32)) ∧
      (c.failing = false → 64 ≤ counted → u.failing = true ∧ u.margin.toNat % 2 ^ 5 = 0) ∧
      ∀ p, c.phase = some p → (t.slot p.slot).sys.chkint.getLsbD 1 = true)) ∧
  (∀ (s : State) (core : Nat),
    ((s.core core).period = s.periodOf core → exec (.replayPeriod core) s = .next s) ∧
    ((s.core core).period ≠ s.periodOf core → exec (.replayPeriod core) s =
      .next (s.setCore core { s.core core with period := s.periodOf core, atZero := 0 }))) ∧
  (∀ (s : State) (slot o n : Nat),
    let x := s.slot slot
    (x.status = .free → exec (.receiveParityError (slot, o, n)) s = .next s) ∧
    (x.status ≠ .free → ∃ t, exec (.receiveParityError (slot, o, n)) s = .next t ∧ t.mem = s.mem ∧ t.cores = s.cores ∧
      t.slot slot = { x with sys := { x.sys with chkint := x.sys.chkint ||| 2 } } ∧ (∀ k, k ≠ slot → t.slot k = s.slot k) ∧
      ∀ l, l ∈ t.poison ↔ l ∈ s.poison ∨ ∃ i < n, o % 2 ^ 17 + i < 2 ^ 17 ∧
        l = spadKey (coreOf slot) (o % 2 ^ 17 + i) / 64)) ∧
  (∀ s : State, exec .softErrorCorrected s =
    .next { s with mc := { s.mc with softErrors := min (s.mc.softErrors + 1) (2 ^ 64 - 1) } }) ∧
  (∀ (s : State) (a b : Nat),
    (s.keyExists a = false → exec (.uncorrectableError (0, a, b)) s = .next s) ∧
    (s.keyExists a = true → ∃ t, exec (.uncorrectableError (0, a, b)) s = .next t ∧ t.mem = s.mem ∧ t.slots = s.slots ∧
      t.cores = s.cores ∧ (∀ l, l ∈ t.poison ↔ l = a / 64 ∨ l ∈ s.poison) ∧
      t.mc = { s.mc with
        poisonLines := if s.poison.contains (a / 64) then s.mc.poisonLines else min (s.mc.poisonLines + 1) (2 ^ 64 - 1) }) ∧
    (s.keyExists (colKey (a / 32) 0) = true → ∃ t, exec (.uncorrectableError (3, a, b)) s = .next t ∧ t.mem = s.mem ∧
      t.cores = s.cores ∧ t.slot a = { s.slot a with pubBad := true } ∧ ∀ k, k ≠ a → t.slot k = s.slot k) ∧
    ((s.core a).view[b]? = none → exec (.uncorrectableError (1, a, b)) s = .next s) ∧
    (∀ x, (s.core a).view[b]? = some x → ∃ t, exec (.uncorrectableError (1, a, b)) s = .next t ∧ t.mem = s.mem ∧
      t.slots = s.slots ∧ (t.core a).view[b]? = some { x with bad := true } ∧
      (∀ i, i ≠ b → (t.core a).view[i]? = (s.core a).view[i]?) ∧ (∀ l, l ∈ t.poison ↔ l = x.line ∨ l ∈ s.poison)) ∧
    ((∀ e ∈ (s.slot a).log.entries, e.seq = b → e.settled = true) → exec (.uncorrectableError (2, a, b)) s = .next s) ∧
    (∀ e, (s.slot a).log.entries.find? (fun e => e.seq == b && !e.settled) = some e →
      ∃ t, exec (.uncorrectableError (2, a, b)) s = .next t ∧ t.mem = s.mem ∧ SameRegs s t ∧
        (∀ x ∈ (t.slot a).log.entries, x.seq = b → x.bad = true) ∧
        ∀ l, l ∈ t.poison ↔ l ∈ s.poison ∨ ∃ k ∈ e.homes, l = k / 64)) ∧
  (∀ (s : State) (lcol : Nat), s.partAt lcol = none → lcol < 20160 → lcol ∉ s.lost →
    ∃ t, exec (.vbusParityFailure lcol 3) s = .next t ∧ s.mc.qrecs.length < t.mc.qrecs.length) ∧
  (∀ (s : State) (lcol repeats pn : Nat) (p : Part), s.partAt lcol = some (pn, p) → s.part? pn = some p →
    (repeats = 1 ∨ repeats = 2 → exec (.vbusParityFailure lcol repeats) s =
      .next { s with mc := { s.mc with vbusRepeats := min (s.mc.vbusRepeats + 1) (2 ^ 64 - 1) } }) ∧
    (repeats = 0 ∨ 3 < repeats ∨ (repeats = 3 ∧ lcol ∈ s.lost) → exec (.vbusParityFailure lcol repeats) s = .next s) ∧
    (lcol ∉ s.lost → p.groups ≠ [] → (s.parts.map (·.1)).Pairwise (· < ·) →
      ∃ t, exec (.vbusParityFailure lcol 3) s = .next t ∧ lcol ∈ t.lost ∧ t.mem = s.mem ∧ SameRegs s t ∧
        ∀ k, k / 32 = lcol → (t.slot k).log.entries = [] ∧ (t.slot k).pub = 0) ∧
    (lcol ∉ s.lost → p.groups = [] → (s.parts.map (·.1)).Pairwise (· < ·) → lcol ∉ s.mc.unplaced →
      ∃ t, exec (.vbusParityFailure lcol 3) s = .next t ∧ s.mc.qrecs.length < t.mc.qrecs.length ∧
        ∀ b, s.lost = [] → (∀ e ∈ s.cores, e.2.failing = false) → s.spareBlock lcol = some b →
          (s.mc.moved.map (·.1)).Pairwise (· < ·) → t.place lcol = ((s.place lcol).1, b) ∧ lcol ∉ t.lost ∧
            25 * (s.place lcol).1 + (s.place lcol).2 ∈ t.mc.retired ∧
            ∀ o < 0x2000000, t.mem.read (colKey lcol o) = Memory.unwritten))

/-! ## Host ports (R385 to R392, R399, R400) -/

/-- R386 to R392, R399, R400, R444: a port's decoder takes the base off and the interleave out of a host address (log
79); a CXL.mem read returns the bytes at home with the poison of their lines, and poison in the reserve; a write of the
owner goes to home, clearing the poison of whole lines, and another port's is dropped and counted; either waits while
its channel is under repair, and goes on after it. An OWNCTL write waits for the end of its round of 1 us (log 49), and
those of one round are taken by ascending port; CLAIM, RELEASE, HANDOVER and ACCEPT then change the owner as R390 gives,
each change advances the epoch and signals vector 0; a handover lapses after 100 ms and the owner's link loss after 1 s
ends its ownership. BAR0 is read in aligned registers of 4 or 8 bytes. A write of OWNCTL is decoded by its bits; one of
a mailbox buffer is kept while the mailbox is not busy, and one of the command code hands the request to the MC, with
whether the port owns the device then (log 88); the base address register keeps an address of 16 MiB alignment and reads
as 64 bits wide (log 79); a launch page takes its message and LWATCH from the owner, and LDOOR submits the message. -/
def Obligations.HostPortsAndOwnership : Prop :=
  (∀ (s : State) (port addr len k : Nat),
    let d := (s.port port).hdm
    let x := addr - d.base
    (s.hostByte port addr len = some k ↔ (s.port port).up = true ∧ d.base ≤ addr ∧ addr + len ≤ d.base + d.size ∧
      (d.ways = 1 ∨ x % d.gran + len ≤ d.gran) ∧ k = x / (d.gran * d.ways) * d.gran + x % d.gran ∧
      k + len ≤ s.mc.hbmtop) ∧
    (s.hostByte port addr len = some k → d.ways = 1 → k = addr - d.base)) ∧
  (∀ (s : State) (port : BitVec 3) (addr len : Nat), s.mc.hbmtop ≤ 2 ^ 41 → 0 < len →
    let answers := fun (k : Nat) (left : List HostAccess) => ∃ t, exec (.cxlMemRead port addr len) s = .next t ∧
      t.mem = s.mem ∧ t.slots = s.slots ∧ t.host.waiting = left ∧ t.host.readData.length = len ∧
      (s.mc.hbmtop - 0xFD8000000 < k + len → t.host.readPoison = true) ∧
      (k + len ≤ s.mc.hbmtop - 0xFD8000000 → (∀ i < len, t.host.readData.getD i 0 = s.mem.read (k + i)) ∧
        (t.host.readPoison = true ↔ ∃ i < len, (k + i) / 64 ∈ s.poison))
    (s.host.waiting = [] →
      (s.hostByte port.toNat addr len = none → exec (.cxlMemRead port addr len) s = .next s) ∧
      ∀ k, s.hostByte port.toNat addr len = some k →
        (s.channelHeld (channelOf k) = false → answers k []) ∧
        (s.channelHeld (channelOf k) = true → exec (.cxlMemRead port addr len) s = .next { s with host := { s.host with
          waiting := [{ port := port.toNat, addr := addr, key := k, len := len, bytes := none }] } })) ∧
    (∀ k rest, s.host.waiting = { port := port.toNat, addr := addr, key := k, len := len, bytes := none } :: rest →
      s.channelHeld (channelOf k) = false → k + len ≤ s.mc.hbmtop → answers k rest)) ∧
  (∀ (s : State) (port : BitVec 3) (addr : Nat) (bytes : List Byte), s.mc.hbmtop ≤ 2 ^ 41 → Memory.wf s.mem = true →
    let n := bytes.length
    let p := port.toNat
    let writes := fun (k : Nat) (left : List HostAccess) => ∃ t, exec (.cxlMemWrite port addr bytes) s = .next t ∧
      t.slots = s.slots ∧ t.journal = s.journal ∧ t.host.waiting = left ∧
      (∀ i < n, t.mem.read (k + i) = bytes.getD i 0) ∧ (∀ x, x < k ∨ k + n ≤ x → t.mem.read x = s.mem.read x) ∧
      ∀ l, l ∈ t.poison ↔ l ∈ s.poison ∧ (bytes = [] ∨ ¬ (k ≤ l * 64 ∧ l * 64 + 64 ≤ k + n))
    (s.host.waiting = [] →
      (s.hostByte p addr n = none → exec (.cxlMemWrite port addr bytes) s = .next s) ∧
      ∀ k, s.hostByte p addr n = some k →
        (s.isOwner p = false → ∃ t, exec (.cxlMemWrite port addr bytes) s = .next t ∧ t.slots = s.slots ∧ t.mem = s.mem ∧
          (t.port p).dropAddr = addr ∧ (t.port p).dropped = min ((s.port p).dropped + 1) (2 ^ 64 - 1)) ∧
        (s.isOwner p = true → s.mc.hbmtop - 0xFD8000000 < k + n → exec (.cxlMemWrite port addr bytes) s = .next s) ∧
        (s.isOwner p = true → k + n ≤ s.mc.hbmtop - 0xFD8000000 →
          (s.channelHeld (channelOf k) = false → writes k []) ∧
          (s.channelHeld (channelOf k) = true → exec (.cxlMemWrite port addr bytes) s = .next { s with host := { s.host with
            waiting := [{ port := p, addr := addr, key := k, len := n, bytes := some bytes }] } }))) ∧
    (∀ k rest, s.host.waiting = { port := p, addr := addr, key := k, len := n, bytes := some bytes } :: rest →
      s.channelHeld (channelOf k) = false → k + n ≤ s.mc.hbmtop → writes k rest)) ∧
  (∀ (s : State) (port target : BitVec 3),
    let h := s.host
    let up := (s.port port.toNat).up = true
    let mine := h.owned = true ∧ h.owner = port.toNat
    let ms := fun (n : Nat) => n * 1000 * s.mc.clock
    let becomes := fun (i : Instr) (f : HostSide) => ∃ t, exec i s = .next t ∧ t.mem = s.mem ∧ t.slots = s.slots ∧
      t.parts = s.parts ∧ t.host.owned = f.owned ∧ t.host.owner = f.owner ∧ t.host.hpend = f.hpend ∧
      t.host.ownWrites = f.ownWrites ∧ t.host.epoch = (h.epoch + 1) % 2 ^ 32 ∧
      ∀ q < 8, (s.port q).up = true → (s.port q).msixOn = true → (s.port q).masked 0 = false →
        lookup 0 (t.port q).signals 0 = lookup 0 (s.port q).signals 0 + 1
    (∀ x ∈ [(Instr.claim port, 1, 0), (.release port, 2, 0), (.handover port target, 3, target.toNat), (.accept port, 4, 0)],
      (∀ w ∈ h.ownWrites, w.port ≠ port.toNat ∨ s.time < w.ends) →
        (up → exec x.1 s = .next { s with host := { h with ownWrites := h.ownWrites ++
          [{ port := port.toNat, op := x.2.1, target := x.2.2, ends := (s.time / s.mc.clock + 1) * s.mc.clock }] } }) ∧
        (¬ up → exec x.1 s = .next s)) ∧
    (∀ w, h.nextOwn = some w → w ∈ h.ownWrites ∧
      ∀ x ∈ h.ownWrites, w.ends < x.ends ∨ (w.ends = x.ends ∧ w.port ≤ x.port)) ∧
    (∀ w, h.nextOwn = some w → w.ends ≤ s.time → w.port = port.toNat →
      let took := { h with ownWrites := h.ownWrites.erase w }
      let nothing := fun (i : Instr) => exec i s = .next { s with host := took }
      (w.op = 1 → w.target = 0 →
        (h.owned = false → becomes (.claim port) { took with owned := true, owner := port.toNat }) ∧
        (h.owned = true → nothing (.claim port))) ∧
      (w.op = 2 → w.target = 0 → (mine → becomes (.release port) { took with owned := false, hpend := false }) ∧
        (¬ mine → nothing (.release port))) ∧
      (w.op = 3 → w.target = target.toNat → (mine → target ≠ port → exec (.handover port target) s =
          .next { s with host := { took with hpend := true, target := target.toNat, handoverAt := s.time } }) ∧
        (¬ mine ∨ target = port → nothing (.handover port target))) ∧
      (w.op = 4 → w.target = 0 →
        (h.hpend = true → h.target = port.toNat → s.time < h.handoverAt + ms 100 →
          becomes (.accept port) { took with owner := port.toNat, hpend := false }) ∧
        (h.hpend = false ∨ h.target ≠ port.toNat ∨ h.handoverAt + ms 100 ≤ s.time → nothing (.accept port)))) ∧
    (h.hpend = true → h.handoverAt + ms 100 ≤ s.time →
      exec .handoverLapse s = .next { s with host := { h with hpend := false } }) ∧
    (h.hpend = false ∨ s.time < h.handoverAt + ms 100 → exec .handoverLapse s = .next s) ∧
    (∀ w, (s.port h.owner).downAt = some w → h.owned = true → w + ms 1000 ≤ s.time →
      becomes .ownerLinkLoss { h with owned := false, hpend := false }) ∧
    ((s.port h.owner).downAt = none → exec .ownerLinkLoss s = .next s) ∧
    (up → exec (.linkDown port) s = .next (s.modPort port.toNat fun x => { x with up := false, downAt := some s.time })) ∧
    exec (.linkUp port) s = .next (s.modPort port.toNat fun x => { x with up := true, downAt := none })) ∧
  (∀ (s : State) (port ofs n : Nat),
    ((n ≠ 4 ∧ n ≠ 8) ∨ ofs % n ≠ 0 → s.barRead port ofs n = none) ∧
    (ofs % 8 = 0 → s.barRead port ofs 8 = some (s.barQuad port ofs) ∧
      s.barRead port ofs 4 = some (BitVec.ofNat 64 ((s.barQuad port ofs).toNat % 2 ^ 32)) ∧
      s.barRead port (ofs + 4) 4 = some (BitVec.ofNat 64 ((s.barQuad port ofs).toNat / 2 ^ 32))) ∧
    s.barQuad port 0 = BitVec.ofNat 64 s.mc.device ∧ s.barQuad port 8 = BitVec.ofNat 64 s.mc.hbmtop ∧
    s.barQuad port 0x10 = BitVec.ofNat 64 s.mc.secver ∧ s.barQuad port 0x18 = BitVec.ofNat 64 (s.port port).dropped ∧
    s.barQuad port 0x20 = BitVec.ofNat 64 (s.port port).dropAddr) ∧
  (∀ (s : State) (port : BitVec 3) (ofs : Nat) (bytes : List Byte),
    let p := port.toNat
    let n := bytes.length
    let write := exec (.registerWrite port (false, ofs) bytes) s
    let does := fun (P : State → Prop) => ∃ t, write = .next t ∧ t.mem = s.mem ∧
      t.slots = s.slots ∧ P t
    ((s.port p).up = false ∨ (n ≠ 4 ∧ n ≠ 8) ∨ ofs % n ≠ 0 →
      ∀ config, exec (.registerWrite port (config, ofs) bytes) s = .next s) ∧
    ((s.port p).up = true → (n = 4 ∨ n = 8) → ofs % n = 0 →
    (ofs = 0 → ∃ t, exec (.registerWrite port (true, ofs) bytes) s = .next t ∧ t.mem = s.mem ∧ t.slots = s.slots ∧
      (t.port p).msixOn = (leNat bytes).testBit 31 ∧ (t.port p).msixMask = (leNat bytes).testBit 30) ∧
    (ofs = 0x1008 → let b := (bytes.getD 0 0).toNat
      (b % 8 = 1 → write = exec (.claim port) s) ∧ (b % 8 = 2 → write = exec (.release port) s) ∧
      (b % 8 = 3 → write = exec (.handover port (BitVec.ofNat 3 (b / 16))) s) ∧
      (b % 8 = 4 → write = exec (.accept port) s) ∧ (b % 8 = 0 ∨ 4 < b % 8 → write = .next s)) ∧
    ((s.port p).busy = true → 0x2000 ≤ ofs → ofs < 0x3000 → write = .next s) ∧
    ((s.port p).busy = false → 0x2100 ≤ ofs → ofs < 0x2200 → (s.port p).request.length = 256 →
      does fun t => ∀ i < 256, (t.port p).request.getD i 0 =
        if ofs ≤ 0x2100 + i ∧ 0x2100 + i < ofs + n then bytes.getD (0x2100 + i - ofs) 0 else (s.port p).request.getD i 0) ∧
    (ofs = 0x28 → n = 8 → ∃ t, exec (.registerWrite port (true, ofs) bytes) s = .next t ∧ t.mem = s.mem ∧
      t.slots = s.slots ∧ (t.port p).configRead ofs 8 = some (t.port p).bar0 ∧
      (t.port p).bar0.toNat = leNat bytes / 2 ^ 24 * 2 ^ 24 + 4) ∧
    ((s.port p).busy = false → ofs = 0x2000 → does fun t => (t.port p).busy = true ∧
      (t.port p).cmdOwned = s.isOwner p ∧ (t.port p).mbxcmd = (bytes.getD 0 0).toNat ∧ t.host.order = s.host.order ++ [p]) ∧
    ∀ pn < 16, ∀ o < 0x1000, ofs = 0x10000 + 0x1000 * pn + o → (o < 0x40 ∨ 0x48 ≤ o) →
      (s.isOwner p = false → does fun t => (t.port p).dropAddr = ofs ∧
        (t.port p).dropped = min ((s.port p).dropped + 1) (2 ^ 64 - 1)) ∧
      (s.isOwner p = true → s.part? pn ≠ none →
        (o < 0x40 → (s.page? pn).msg.length = 64 → does fun t => ∀ i < 64, (t.page? pn).msg.getD i 0 =
          if (s.page? pn).busy = false ∧ o ≤ i ∧ i < o + n then bytes.getD (i - o) 0 else (s.page? pn).msg.getD i 0) ∧
        (o = 0x60 → n = 8 → does fun t => (t.page? pn).watch.toNat = leNat bytes % 2 ^ 13)))) ∧
  (∀ (s : State) (port part : Nat) (x : BitVec 3) (y : BitVec 4), x.toNat = port → y.toNat = part →
    (s.port port).up = true →
    let v := s.page? part
    (s.isOwner port = true → (s.part? part = none ∨ v.busy = true) → exec (.ldoor x y) s = .next s) ∧
    ∃ t, exec (.ldoor x y) s = .next t ∧ t.mem = s.mem ∧ t.slots = s.slots ∧
      (s.isOwner port = false → (t.port port).dropAddr = 0x10040 + 0x1000 * part ∧
        (t.port port).dropped = min ((s.port port).dropped + 1) (2 ^ 64 - 1)) ∧
      ∀ p, s.isOwner port = true → s.part? part = some p → v.busy = false →
        t.page? part = { v with busy := true, valid := false, count := (v.count + 1) % 2 ^ 32 } ∧
        t.part? part = some { p with launches := p.launches ++ [{ bytes := v.msg, sender := none }] })

/-! ## The MC mailbox (R393 to R401, R416 to R426) -/

/-- R392 to R398, R401, R404: a command is taken in its turn; a port that did not own the device when it wrote the
command (log 88) gets NOTOWNER, a partition that does not exist NOPART, one that is out SWSTATE, and a refused command
changes nothing. PCREATE refuses a number in use, a rectangle, number or root out of range and an overlap, and else
makes the partition with its slots; PDESTROY ends its groups, lets its copies, jobs and requests run on, and takes it
away when none is left (log 76); PINFO returns its request and, after its 64 bytes, its count of live groups (log 47);
PDEVMAP replaces the device map; SLOTREG writes a register of the free slots it names, or of the context; GKILL_COMMAND
kills a live group; FWSTAGE stages an image that lies in HBM, at the address and of the length that its first two quads
give (log 47), whose digest is the one that was signed (log 12), and that is not older; and an undefined code gets
BADCMD. -/
def Obligations.PartitionCommands : Prop := ∀ (s : State) (port : BitVec 3),
  let me := port.toNat
  let r := (s.port me).request
  let taken := fun (code : Nat) => s.host.order.head? = some me ∧ (s.port me).busy = true ∧ (s.port me).mbxcmd = code
  let owner := (s.port me).cmdOwned = true
  let ends := fun (i : Instr) (result : Nat) (P : State → List Byte → Prop) => ∃ t, exec i s = .next t ∧
    (t.port me).busy = false ∧ (t.port me).result = result ∧ me ∉ t.host.order ∧ P t (t.port me).response
  let refused := fun (i : Instr) (result : Nat) => ends i result fun t resp => t.mem = s.mem ∧ t.slots = s.slots ∧
    t.parts = s.parts ∧ t.mc = s.mc ∧ resp = (s.port me).response
  let named := s.part? (recNat 0 1 r)
  let byte := fun (i : Nat) => recNat i 1 r
  let quad := fun (i : Nat) => recNat i 8 r
  (∀ (v : Nat) (n : BitVec 64) (d : BitVec 256), ∀ c ∈ ([(.pcreate port, 0x01), (.pdestroy port, 0x02), (.pslice port, 0x06),
      (.pdevmap port, 0x07), (.slotreg port, 0x08), (.gkillCommand port, 0x09), (.fwstage port v n d, 0x10),
      (.fwactivate port, 0x11), (.telem port, 0x20), (.mstat port, 0x21), (.mlog port, 0x22), (.hmap port, 0x23),
      (.qrec port, 0x24), (.sppr port, 0x30), (.hppr port, 0x31), (.pwrlim port, 0x32)] : List (Instr × Nat)),
    (¬ taken c.2 → exec c.1 s = .next s) ∧ (taken c.2 → ¬ owner → refused c.1 4)) ∧
  (taken 0x01 → owner → r.length = 256 → s.mc.meas.length = 8 →
    let w := byte 3
    let h := byte 4
    let bad := 15 < byte 0 ∨ w = 0 ∨ h = 0 ∨ 24 < byte 1 + w ∨ 35 < byte 2 + h ∨ quad 8 % 2 ^ 13 ≠ 0 ∨
      s.mc.hbmtop < quad 8 + 2 ^ 13
    let clash := ∃ e ∈ s.parts, e.2.px < byte 1 + w ∧ byte 1 < e.2.px + e.2.w ∧ e.2.py < byte 2 + h ∧
      byte 2 < e.2.py + e.2.h
    (named ≠ none → refused (.pcreate port) 1) ∧
    (named = none → bad → refused (.pcreate port) 3) ∧
    (named = none → ¬ bad → clash → refused (.pcreate port) 2) ∧
    (named = none → ¬ bad → ¬ clash → ends (.pcreate port) 0 fun t _ => ∃ q, t.part? (byte 0) = some q ∧ t.mem = s.mem ∧
      q.px = byte 1 ∧ q.py = byte 2 ∧ q.w = w ∧ q.h = h ∧ q.root = quad 8 ∧ q.groups = [] ∧ q.nextTgid = 1 ∧
      q.launches = [] ∧ q.out = none ∧ q.request = r.take 64 ∧ (∀ n, q.token n = .done) ∧ (∀ g, (q.bar g).gen = 0) ∧
      q.trapvec = BitVec.ofNat 64 (quad 0x10) &&& 0xFFFFFFFFFFFFFFF9 ∧
      q.bankkey = BitVec.ofNat 64 (quad 0x18) &&& 0xFFFFFFF ∧
      q.ltbase = BitVec.ofNat 64 (quad 0x20) &&& 0xFFFFFFFFFFFFFF80 ∧
      t.mc.meas.getD 4 0 = extendWith (s.mc.meas.getD 4 0) (sha3 (r.take 64)) ∧
      ∀ k, q.hasSlot k = true → (t.slot k).status = .free ∧
        (t.slot k).sys.prgn[0] = BitVec.ofNat 64 (quad 0x30) &&& 0xFFFFFC79 ∧
        (t.slot k).sys.slotcfg = BitVec.ofNat 64 (quad 0x38) &&& 0xFFFFFFFF0000001F)) ∧
  (∀ c ∈ ([(.pdestroy port, 0x02), (.pdevmap port, 0x07), (.slotreg port, 0x08), (.gkillCommand port, 0x09)] : List (Instr × Nat)),
    taken c.2 → owner → (named = none → refused c.1 6) ∧
      ∀ p, named = some p → p.out ≠ none → c.2 ≠ 0x02 → refused c.1 9) ∧
  (∀ p, taken 0x02 → owner → named = some p →
    let work := (p.out = none ∧ ((∃ c ∈ s.copies, p.hasSlot c.slot = true) ∨ ∃ j ∈ s.jobs, p.hasSlot j.slot = true)) ∨
      ∃ m ∈ s.masks, p.hasSlot m.slot = true
    (work → ∃ t, exec (.pdestroy port) s = .next t ∧ (t.port me).busy = true ∧ t.host.order = s.host.order ∧
      (p.out = none → t.copies.length = s.copies.length ∧ t.jobs.length = s.jobs.length) ∧
      t.masks.length = s.masks.length ∧ ∃ q, t.part? (byte 0) = some q ∧ q.groups = [] ∧ q.out = none) ∧
    (¬ work → (∀ e ∈ s.slots, p.hasSlot e.1 = true → e.2.log.entries = []) → ends (.pdestroy port) 0 fun t _ =>
      t.part? (byte 0) = none ∧ (∀ k, p.hasSlot k = true → t.slot k = Slot.reset) ∧
      ∀ j ∈ t.journal, j.part ≠ byte 0)) ∧
  ((¬ taken 0x03 → exec (.pinfo port) s = .next s) ∧ (taken 0x03 → named = none → refused (.pinfo port) 6) ∧
    ∀ p, taken 0x03 → named = some p → p.request.length = 64 → p.groups.length < 2 ^ 32 →
      ends (.pinfo port) 0 fun t resp =>
        t.mem = s.mem ∧ t.slots = s.slots ∧ t.parts = s.parts ∧ resp.take 64 = p.request ∧ recNat 64 4 resp = p.groups.length) ∧
  (∀ p, named = some p → p.out = none → owner →
    (taken 0x07 →
      let e := fun (i : Nat) => quad (8 + 8 * i)
      ((∃ i < 16, 2 ^ 22 < e i % 2 ^ 22 + e i / 2 ^ 22 % 2 ^ 22) → refused (.pdevmap port) 3) ∧
      ((∀ i < 16, e i % 2 ^ 22 + e i / 2 ^ 22 % 2 ^ 22 ≤ 2 ^ 22) → ends (.pdevmap port) 0 fun t _ => t.mem = s.mem ∧
        t.slots = s.slots ∧ ∃ q, t.part? (byte 0) = some q ∧ q = { p with devmap := q.devmap } ∧ q.devmap.length = 16 ∧
          ∀ i < 16, q.devmap.getD i 0 = BitVec.ofNat 64 (e i))) ∧
    (taken 0x08 →
      let n := recNat 6 2 r
      let v := BitVec.ofNat 64 (quad 8)
      let m := BitVec.ofNat 64 (quad 16)
      let merged := fun (w old : Word) => (old &&& ~~~ (w &&& m)) ||| (v &&& (w &&& m))
      (n = 0x040 → s.partAt (p.cols.headD 0) = some (byte 0, p) → ends (.slotreg port) 0 fun t _ => t.mem = s.mem ∧
        t.slots = s.slots ∧ t.part? (byte 0) = some { p with trapvec := merged 0xFFFFFFFFFFFFFFF9 p.trapvec }) ∧
      (n = 0x001 ∨ n = 0x030 → refused (.slotreg port) 3) ∧
      (n = 0x007 → p.px + p.w ≤ 24 → p.py + p.h ≤ 35 →
        let col := recNat 2 2 r
        let to_ := fun (k : Nat) => p.hasSlot k = true ∧ (col = 0xFFFF ∨ k / 32 = col) ∧
          (byte 4 = 0xFF ∨ k / 4 % 8 = byte 4) ∧ (byte 5 = 0xFF ∨ k % 4 = byte 5)
        ((col ≠ 0xFFFF ∧ p.hasCol col = false) ∨ (byte 4 ≠ 0xFF ∧ 8 ≤ byte 4) ∨ (byte 5 ≠ 0xFF ∧ 4 ≤ byte 5) →
          refused (.slotreg port) 3) ∧
        ((col = 0xFFFF ∨ p.hasCol col = true) → (byte 4 = 0xFF ∨ byte 4 < 8) → (byte 5 = 0xFF ∨ byte 5 < 4) →
          ends (.slotreg port) 0 fun t resp => t.mem = s.mem ∧ t.parts = s.parts ∧
            (∀ k, to_ k → (s.slot k).status = .free → t.slot k = { s.slot k with
              sys := { (s.slot k).sys with mxscale := merged 0x1FFFF (s.slot k).sys.mxscale } }) ∧
            (∀ k, ¬ to_ k ∨ (s.slot k).status ≠ .free → t.slot k = s.slot k) ∧
            ∀ k, to_ k → col ≠ 0xFFFF → byte 4 ≠ 0xFF → byte 5 ≠ 0xFF →
              recNat 0 4 resp = (if (s.slot k).status = .free then 1 else 0) ∧
              recNat 4 4 resp = if (s.slot k).status = .free then 0 else 1))) ∧
    (taken 0x09 →
      let id := recNat 2 2 r
      ((∀ g ∈ p.groups, g.tgid ≠ id) → ends (.gkillCommand port) 0 fun t resp => resp.getD 0 0 = 0 ∧ t.mem = s.mem ∧
        t.slots = s.slots ∧ t.parts = s.parts) ∧
      ((∃ g ∈ p.groups, g.tgid = id) → ends (.gkillCommand port) 0 fun t resp => resp.getD 0 0 = 1 ∧
        (∀ k, (s.slot k).partNo = byte 0 → (s.slot k).tgid = id → (t.slot k).status = .free) ∧
        ∃ q, t.part? (byte 0) = some q ∧ ∀ g ∈ q.groups, g.tgid ≠ id))) ∧
  (∀ (v : Nat) (n : BitVec 64) (d : BitVec 256), taken 0x10 → owner →
    let digest := BitVec.ofNat 256 (leNat (sha3 ((List.range (quad 8)).map fun i => s.mem.read (quad 0 + i))))
    let fits := v = 0 ∧ quad 0 + quad 8 ≤ s.mc.hbmtop ∧ digest = d
    (¬ fits → refused (.fwstage port v n d) 7) ∧
    (fits → n.toNat < s.mc.secver → refused (.fwstage port v n d) 8) ∧
    (fits → s.mc.secver ≤ n.toNat → ends (.fwstage port v n d) 0 fun t _ =>
      t.mc = { s.mc with staged := some (n.toNat, digest) } ∧
      t.mem = s.mem ∧ t.slots = s.slots ∧ t.parts = s.parts)) ∧
  (∀ code, taken code →
    let known := code ∈ ([1, 2, 3, 4, 5, 6, 7, 8, 9, 0x10, 0x11, 0x20, 0x21, 0x22, 0x23, 0x24, 0x30, 0x31, 0x32] : List Nat)
    (known → exec (.badcmd port) s = .next s) ∧ (¬ known → owner → refused (.badcmd port) 5))

/-- R416 to R422, R425, R426: PSWITCH refuses a mode, a base and a partition it cannot switch, and else sets the
switch due after its lead, its mailbox still busy; PRESUME of a partition that is out begins its restore. A switch
that is due, or that a phase or barrier has held back, 64 cycles after it, waits for the answers that R420 names;
then in a calm partition it stops the cores and writes the scratchpads and accumulator stores into the image, with
nothing outside the image changed; the restore of an image as it was written puts them back, the cores issue from Tr
on, and the waiting port has its answer; an altered image leaves the partition out, or brings a checkpointed one
back without a group. PSLICE sets a standing slice, never below twice the estimate, whose end asks for a checkpoint,
whatever switch a command has asked for. That a second PSWITCH and a PRESUME wait for the switch under way, the order of a
slice's checkpoint and a command's, the wait for a soft repair, and Tr at exactly 64 cycles past the restore are the model's
choices (logs 14 and 48). -/
def Obligations.GangSwitches : Prop :=
  (∀ (s : State) (port : BitVec 3),
    let me := port.toNat
    let r := (s.port me).request
    let mode := recNat 1 1 r
    let base := recNat 8 8 r
    let n := recNat 0 1 r
    let i := if mode = 1 then Instr.pswitchOut port else .pswitchCheckpoint port
    let taken := fun (code : Nat) => s.host.order.head? = some me ∧ (s.port me).busy = true ∧ (s.port me).mbxcmd = code
    let ends := fun (i : Instr) (result : Nat) (P : State → Prop) => ∃ t, exec i s = .next t ∧
      (t.port me).busy = false ∧ (t.port me).result = result ∧ t.mem = s.mem ∧ t.slots = s.slots ∧ P t
    let refused := fun (i : Instr) (result : Nat) => ends i result fun t => t.parts = s.parts
    let fits := fun (p : Part) => base % 2 ^ 21 = 0 ∧ base + 0x10000 + 0x200000 * (24 * (p.w * p.h)) ≤ s.mc.hbmtop
    exec (if mode = 1 then Instr.pswitchCheckpoint port else .pswitchOut port) s = .next s ∧
    (¬ taken 4 → exec i s = .next s) ∧ (¬ taken 5 → exec (.presume port) s = .next s) ∧
    (s.underWay me = false →
      (taken 4 → (s.port me).cmdOwned = false → refused i 4) ∧
      (taken 4 → (s.port me).cmdOwned = true → (s.part? n = none → refused i 6) ∧
        ∀ p, s.part? n = some p → (p.out ≠ none → refused i 9) ∧
          (p.out = none → 1 < mode ∨ ¬ fits p → refused i 3) ∧
          (p.out = none → mode ≤ 1 → fits p → p.switchReq ≠ none → exec i s = .next s) ∧
          (p.out = none → mode ≤ 1 → fits p → p.switchReq = none → exec i s = .next (s.setPart n { p with
            switchReq := some { out := mode == 1, base := base, due := s.time + max 4096 (recNat 16 4 r), port := some me } }))) ∧
      (taken 5 → (s.port me).cmdOwned = true → (s.part? n = none → refused (.presume port) 6) ∧
        ∀ p, s.part? n = some p → (p.out = none → refused (.presume port) 9) ∧
          ∀ img, p.out = some img →
            (∀ other, img.back = some (some other) → exec (.presume port) s = .next s) ∧
            (img.back = none ∨ img.back = some none → exec (.presume port) s =
              .next (s.setPart n { p with out := some { img with back := some (some me), byResume := true } })))) ∧
    (taken 6 → (s.port me).cmdOwned = true → ∀ p, s.part? n = some p → p.out = none →
      let len := recNat 16 8 r
      let least := 2 * (p.saveest.toNat % 2 ^ 32)
      (¬ fits p → refused (.pslice port) 3) ∧
      (fits p → len = 0 → ends (.pslice port) 0 fun t => t.part? n = some { p with slice := none }) ∧
      (fits p → len ≠ 0 → ends (.pslice port) 0 fun t => ∃ q, t.part? n = some q ∧
        q.slice = some { base := base, len := len, since := s.time, use := max len least, pending := none } ∧
        recNat 0 8 (t.port me).response = max len least ∧ (q.saveest.getLsbD 63 = true ↔ len < least ∨ p.saveest.getLsbD 63 = true)))) ∧
  (∀ (s : State) (part : BitVec 4) (p : Part), s.part? part.toNat = some p →
    (∀ x, p.slice = some x →
      (p.out ≠ none ∨ x.pending ≠ none ∨ s.time < x.since + x.use → exec (.sliceExpiry part) s = .next s) ∧
      (p.out = none → x.pending = none → x.since + x.use ≤ s.time → exec (.sliceExpiry part) s =
        .next (s.setPart part.toNat { p with slice := some { x with pending := some (s.time + 4096) } }))) ∧
    (p.slice = none → exec (.sliceExpiry part) s = .next s ∧ p.nextSwitch = p.switchReq) ∧
    (∀ x, p.slice = some x → (x.pending = none → p.nextSwitch = p.switchReq) ∧
      ∀ d, x.pending = some d → (∀ q, p.switchReq = some q → q.due ≤ d → p.nextSwitch = some q) ∧
        (p.switchReq = none ∨ (∃ q, p.switchReq = some q ∧ d < q.due) →
          p.nextSwitch = some { out := false, base := x.base, due := d, port := none })) ∧
    (p.nextSwitch = none → exec (.switchOut part) s = .next s) ∧
    ∀ q, p.nextSwitch = some q →
      let ts := if q.due < p.calm then p.calm + 64 else q.due
      (p.out ≠ none ∨ s.time < ts ∨ s.calmPart part.toNat = false ∨ s.partAwaits part.toNat = true ∨ s.repairRuns = true →
        exec (.switchOut part) s = .next s) ∧
      (p.out = none → ts ≤ s.time → s.calmPart part.toNat = true → s.partAwaits part.toNat = false →
        s.repairRuns = false → (∀ j ∈ s.jobs, j.running = false) →
        (s.parts.map (·.1)).Pairwise (· < ·) → p.px + p.w ≤ 24 → p.py + p.h ≤ 35 → q.base % 2 ^ 21 = 0 →
        q.base + imageSize p ≤ 2 ^ 41 → (∀ k, (s.slot k).flight = []) → (∀ c, (s.core c).view = []) →
        Memory.wf s.mem = true → ∃ (t : State) (y : Part) (img : Image), exec (.switchOut part) s = .next t ∧ t.part? part.toNat = some y ∧
          y.out = some img ∧ y.switchReq = (if p.switchReq = some q then none else p.switchReq) ∧ img.base = q.base ∧
          img.ts = ts ∧ img.byResume = false ∧ img.checkpoint = (!q.out) ∧
          img.back = (if q.out then none else some q.port) ∧ y.groups = p.groups ∧
          (∀ c, (s.partAt (c / 8)).map (·.1) = some part.toNat → (t.core c).issuing = none) ∧
          (∀ j < p.w * p.h * 24, ∀ c < 8, ∀ o < 2 ^ 17,
            t.mem.read (q.base + 0x10000 + 0x200000 * j + 0x28000 * c + o) =
              s.mem.read (spadKey (p.cols.getD j 0 * 8 + c) o)) ∧
          (∀ j < p.w * p.h * 24, ∀ o < 2 ^ 18, t.mem.read (q.base + 0x10000 + 0x200000 * j + 0x140000 + o) =
            s.mem.read (accKey (p.cols.getD j 0) o)) ∧
          ∀ k, k < q.base ∨ q.base + imageSize p ≤ k → t.mem.read k = s.mem.read k)) ∧
  (∀ (s : State) (part : BitVec 4) (p : Part), s.part? part.toNat = some p →
    (p.out = none → exec (.switchIn part) s = .next s) ∧
    ∀ img, p.out = some img →
      (img.back = none → exec (.switchIn part) s = .next s) ∧
      (s.repairRuns = true → exec (.switchIn part) s = .next s) ∧
      ∀ w, s.repairRuns = false → img.back = some w →
      let told := fun (t : State) (result : Nat) => ∀ port, w = some port →
        (t.port port).busy = false ∧ (t.port port).result = result
      (s.intact p img = false →
        (img.checkpoint = false → ∃ t, exec (.switchIn part) s = .next t ∧ told t 10 ∧ t.mem = s.mem ∧ t.slots = s.slots ∧
          t.part? part.toNat = some { p with out := some { img with back := none } }) ∧
        (img.checkpoint = true → ∃ (t : State) (q : Part), exec (.switchIn part) s = .next t ∧ told t 10 ∧
          t.part? part.toNat = some q ∧ q.out = none ∧ q.groups = [])) ∧
      (s.intact p img = true → p.px + p.w ≤ 24 → p.py + p.h ≤ 35 → img.base % 2 ^ 21 = 0 →
        img.base + imageSize p ≤ 2 ^ 41 → (∀ k, (s.slot k).log.entries = [] ∧ (s.slot k).spilled = []) →
        Memory.wf s.mem = true →
        ∃ (t : State) (q : Part) (restore : Nat), exec (.switchIn part) s = .next t ∧ t.part? part.toNat = some q ∧
          q.out = none ∧ q.groups = p.groups ∧ q.bankkey = p.bankkeyKept ∧ (∀ k, (t.slot k).regs = (s.slot k).regs) ∧
          restore < 2 ^ 32 ∧
          let tr := max s.time (img.ts + img.save) + restore + 64
          q.resumeAt = tr ∧ told t 0 ∧
          (∀ port, w = some port → (t.port port).response.take 24 =
            if img.checkpoint = true ∧ img.byResume = false
            then bytesOf 8 img.ts ++ bytesOf 8 tr ++ bytesOf 4 img.save ++ bytesOf 4 restore
            else bytesOf 8 tr ++ bytesOf 4 restore ++ List.replicate 12 0) ∧
          (∀ j < p.w * p.h * 24, ∀ c < 8, ∀ o < 2 ^ 17, t.mem.read (spadKey (p.cols.getD j 0 * 8 + c) o) =
            s.mem.read (img.base + 0x10000 + 0x200000 * j + 0x28000 * c + o)) ∧
          ∀ j < p.w * p.h * 24, ∀ o < 2 ^ 18, t.mem.read (accKey (p.cols.getD j 0) o) =
            s.mem.read (img.base + 0x10000 + 0x200000 * j + 0x140000 + o)))

/-! ## The module (R54, R402, R403, R438 to R447) -/

/-- R54, R402, R403, R438 to R447: the queries answer with the time, counts, margins, margin-log events, harvest
words and quarantine records that the MC holds; a soft repair takes a spare and holds its channel for at most
380,000 cycles (log 80), and waits while its stack is under repair, a hard one waits for the next reset, both
refused for a row out of range; PWRLIM sets or removes the cap; the clock steps by 25 MHz between 1,200 and 1,900 at
most once a millisecond and in no phase; above 115 °C every group ends and the wafer stops. A reset ends every
partition, keeps the records and boots what was activated. The DOE answers with the certificate chain, and with a
report of epoch, nonce, security version and measurements. A load, an atomic or a copy of another device is
performed in the scratchpad its address names, where its regions grant it, or waits while the partition is out, and a launch
message of another device joins its endpoint. That memory is empty and time 0 after a reset, and that the clock rises where
there is no cap, are the model's choices (logs 1, 50 and 54). -/
def Obligations.ModuleAndOutside : Prop :=
  (∀ (s : State) (port : BitVec 3),
    let me := port.toNat
    let r := (s.port me).request
    let n := recNat 0 2 r
    let taken := fun (code : Nat) => s.host.order.head? = some me ∧ (s.port me).busy = true ∧
      (s.port me).mbxcmd = code ∧ (s.port me).cmdOwned = true
    let ends := fun (i : Instr) (result : Nat) (P : State → List Byte → Prop) => ∃ t, exec i s = .next t ∧
      (t.port me).busy = false ∧ (t.port me).result = result ∧ t.mem = s.mem ∧ t.slots = s.slots ∧ t.parts = s.parts ∧
      t.cores = s.cores ∧ P t (t.port me).response
    let row := (recNat 0 1 r * 32 + recNat 1 1 r, recNat 4 4 r)
    let noRow := 23 < recNat 0 1 r ∨ 31 < recNat 1 1 r
    let queued := (s.mc.hardRepairs.filter fun x => x.1 / 32 == recNat 0 1 r).length
    let cap := recNat 0 4 r
    (taken 0x11 → (s.mc.staged = none → ends (.fwactivate port) 12 fun t _ => t.mc = s.mc) ∧
      (s.mc.staged ≠ none → ends (.fwactivate port) 0 fun t _ => t.mc = { s.mc with activate := true })) ∧
    (taken 0x20 → s.time < 2 ^ 64 → s.mc.clock < 2 ^ 16 → s.mc.softErrors < 2 ^ 64 → s.mc.poisonLines < 2 ^ 64 →
      ends (.telem port) 0 fun t resp => t.mc = { s.mc with power := t.mc.power, temps := t.mc.temps } ∧
        recNat 0 8 resp = s.time ∧ recNat 8 4 resp = t.mc.power ∧ recNat 12 2 resp = s.mc.clock ∧
        (∀ d < 24, recNat (16 + d) 1 resp = t.mc.temps.getD d 0) ∧ recNat 40 8 resp = s.mc.softErrors ∧
        recNat 48 8 resp = s.mc.poisonLines) ∧
    (taken 0x21 → (20159 < n → ends (.mstat port) 3 fun t _ => t.mc = s.mc) ∧
      (n ≤ 20159 → n ∈ s.mc.unplaced → ends (.mstat port) 6 fun t _ => t.mc = s.mc) ∧
      (n ≤ 20159 → n ∉ s.mc.unplaced → ends (.mstat port) 0 fun t resp => t.mc = s.mc ∧ ∀ c < 8,
        let x := s.core (n * 8 + c)
        recNat (32 * c) 1 resp = x.margin.toNat % 2 ^ 5 ∧ recNat (32 * c + 1) 1 resp = x.margin.toNat / 2 ^ 16 % 2 ^ 5 ∧
        recNat (32 * c + 2) 1 resp = x.margin.toNat / 2 ^ 24 % 2 ^ 4 ∧
        recNat (32 * c + 3) 1 resp = (x.margin.getLsbD 31).toNat + 2 * x.failing.toNat ∧
        recNat (32 * c + 8) 8 resp = x.replays.toNat % 2 ^ 32 ∧
        recNat (32 * c + 16) 4 resp = min (lookup 0 s.mc.raises (n * 8 + c)) (2 ^ 32 - 1) ∧
        (x.atZero < 2 ^ 32 → recNat (32 * c + 20) 4 resp = if x.period = s.periodOf (n * 8 + c) then x.atZero else 0))) ∧
    (taken 0x22 → ends (.mlog port) 0 fun t resp => t.mc = { s.mc with marginLog := t.mc.marginLog } ∧
      t.mc.marginLog.length = s.mc.marginLog.length ∧ ∀ i < 16,
        (s.mc.marginLog[recNat 0 8 r + i]? = none → (resp.drop (16 * i)).take 16 = List.replicate 16 0) ∧
        ∀ e, s.mc.marginLog[recNat 0 8 r + i]? = some e → s.mc.marginLog.length ≤ recNat 0 8 r + i + 4096 →
          e.time < 2 ^ 64 → e.lcol < 2 ^ 16 → e.core < 8 → e.kind < 4 → e.offset < 32 →
          recNat (16 * i) 8 resp = e.time ∧ recNat (16 * i + 8) 2 resp = e.lcol ∧ recNat (16 * i + 10) 1 resp = e.core ∧
          recNat (16 * i + 11) 1 resp = e.kind ∧ recNat (16 * i + 12) 1 resp = e.offset) ∧
    (taken 0x23 → ends (.hmap port) 0 fun t resp => t.mc = s.mc ∧
      ∀ i < 64, recNat (4 * i) 4 resp = s.mc.harvestWord (n + i)) ∧
    (taken 0x24 → (∀ q ∈ s.mc.qrecs, q.length = 32) → ends (.qrec port) 0 fun t resp => t.mc = s.mc ∧
      ∀ i < 8, ∀ q, 0 < recNat 0 4 r + i → s.mc.qrecs[recNat 0 4 r + i - 1]? = some q → (resp.drop (32 * i)).take 32 = q) ∧
    (taken 0x30 → (noRow → ends (.sppr port) 3 fun t _ => t.mc = s.mc) ∧
      let busy := ∃ x ∈ s.mc.repairing, x.1 / 32 = recNat 0 1 r ∧ s.time < x.2
      (¬ noRow → busy → exec (.sppr port) s = .next s) ∧
      (¬ noRow → ¬ busy → s.mc.softLeft row = false → ends (.sppr port) 11 fun t _ => t.mc = s.mc) ∧
      (¬ noRow → ¬ busy → s.mc.softLeft row = true → ends (.sppr port) 0 fun t _ =>
        t.mc = { s.mc with softRepairs := s.mc.softRepairs ++ [row], softDone := s.mc.softDone + 1,
                           repairing := t.mc.repairing } ∧ t.channelHeld row.1 = true ∧
        ∀ x ∈ t.mc.repairing, x ∈ s.mc.repairing ∨ (x.1 = row.1 ∧ s.time < x.2 ∧ x.2 ≤ s.time + 380000))) ∧
    (taken 0x31 → (noRow → ends (.hppr port) 3 fun t _ => t.mc = s.mc) ∧
      (¬ noRow → 64 ≤ queued ∨ s.mc.fuseLeft row = false → ends (.hppr port) 11 fun t _ => t.mc = s.mc) ∧
      (¬ noRow → queued < 64 → s.mc.fuseLeft row = true → ends (.hppr port) 0 fun t _ =>
        t.mc = { s.mc with hardRepairs := s.mc.hardRepairs ++ [row] })) ∧
    (taken 0x32 → (cap = 0 ∨ (24000 ≤ cap ∧ cap ≤ 45000) → ends (.pwrlim port) 0 fun t resp =>
        t.mc = { s.mc with cap := cap } ∧ recNat 0 4 resp = cap) ∧
      (0 < cap → cap < 24000 ∨ 45000 < cap → ends (.pwrlim port) 3 fun t _ => t.mc = s.mc))) ∧
  (∀ s : State,
    let due := s.mc.lastClock + 1000 * s.mc.clock ≤ s.time
    let hot := fun (m : Mc) (deg : Nat) => ∃ x ∈ m.temps, deg < x
    (¬ due ∨ (∃ e ∈ s.cores, e.2.phase ≠ none) → exec .powerClockStep s = .next s) ∧
    (due → (∀ e ∈ s.cores, e.2.phase = none) → ∃ t, exec .powerClockStep s = .next t ∧ t.mem = s.mem ∧ t.slots = s.slots ∧
      t.cores = s.cores ∧ t.mc.lastClock = s.time ∧ t.mc.cap = s.mc.cap ∧
      let m := t.mc
      (((m.cap ≠ 0 ∧ m.cap < m.power) ∨ hot m 105) → m.clock = max 1200 (s.mc.clock - 25)) ∧
      (¬ ((m.cap ≠ 0 ∧ m.cap < m.power) ∨ hot m 105) → m.cap = 0 ∨ 100 * m.power ≤ 95 * m.cap →
        m.clock = min 1900 (s.mc.clock + 25)) ∧
      (¬ hot m 105 → m.power ≤ m.cap → 95 * m.cap < 100 * m.power → m.clock = s.mc.clock)) ∧
    (s.mc.stopped = true ∨ ¬ hot s.mc 115 → exec .thermalShutdown s = .next s) ∧
    (s.mc.stopped = false → hot s.mc 115 → ∃ t, exec .thermalShutdown s = .next t ∧ t.mc.stopped = true ∧
      (∀ n q, t.part? n = some q → q.groups = []) ∧ ∀ c, t.canIssue c = false) ∧
    ∃ t, exec .moduleReset s = .next t ∧ t.mem = [] ∧ t.slots = [] ∧ t.cores = [] ∧ t.parts = [] ∧
      t.host = State.reset.host ∧ t.time = 0 ∧ t.inputs = s.inputs ∧ t.mc.qrecs = s.mc.qrecs ∧ t.mc.staged = none ∧
      t.mc.hardRepairs = [] ∧ (∀ x ∈ s.mc.hardRepairs, x ∈ t.mc.hardDone) ∧
      (∀ v d, s.mc.activate = true → s.mc.staged = some (v, d) → t.mc.secver = v ∧ t.mc.fw = some d) ∧
      (s.mc.activate = false ∨ s.mc.staged = none → t.mc.secver = s.mc.secver ∧ t.mc.fw = s.mc.fw)) ∧
  (∀ (s : State) (port : BitVec 3) (nonce : BitVec 256),
    let up := (s.port port.toNat).up = true
    (¬ up → exec (.getcert port) s = .next s ∧ exec (.getreport port nonce) s = .next s) ∧
    (up → (∃ t, exec (.doeDiscovery port) s = .next t ∧ t.host = { s.host with readData := t.host.readData, readPoison := false } ∧
        t.host.readData.length = 4) ∧
      exec (.getcert port) s = .next { s with host := { s.host with
        readData := (List.range Config.certLength).map Config.certByte, readPoison := false } } ∧
      (s.mc.meas.length = 8 → s.host.epoch < 2 ^ 32 → s.mc.secver < 2 ^ 32 →
        ∃ d, exec (.getreport port nonce) s = .next { s with host := { s.host with readData := d, readPoison := false } } ∧
          d.length = 304 + 2420 ∧ recNat 0 4 d = 1 ∧ recNat 4 4 d = s.host.epoch ∧ recNat 8 32 d = nonce.toNat ∧
          recNat 40 4 d = s.mc.secver ∧ ∀ i < 8, recNat (48 + 32 * i) 32 d = (s.mc.meas.getD i 0).toNat))) ∧
  (∀ (s : State) (addr : Word) (bytes : List Byte) (pn core w o : Nat) (p : Part), addr.getLsbD 41 = true →
    s.partAt (addr.toNat % 2 ^ 41 / 2 ^ 26) = some (pn, p) → p.out = none → core < 161280 →
    s.target p (2 ^ 20) addr = some (.spad core w o) → core / 8 ∉ s.mc.unplaced → Memory.wf s.mem = true →
    s.host.waiting = [] →
    let key := fun (i : Nat) => spadKey core (o + i)
    (bytes ≠ [] → o % 4096 + bytes.length ≤ 4096 →
      (s.permitsOthers core [5] o bytes.length = true → ∃ t, exec (.deviceAccessArrival 0 addr bytes) s = .next t ∧
        t.mem = s.mem ∧ t.slots = s.slots ∧ t.host.readData = (List.range bytes.length).map fun i => s.mem.read (key i)) ∧
      (s.permitsOthers core [6] o bytes.length = true → ∃ t, exec (.deviceAccessArrival 2 addr bytes) s = .next t ∧
        t.slots = s.slots ∧ t.journal = s.journal ∧ (∀ i < bytes.length, t.mem.read (key i) = bytes.getD i 0) ∧
        ∀ k, (∀ i < bytes.length, k ≠ key i) → t.mem.read k = s.mem.read k)) ∧
    (bytes.length = 17 → bytes.getD 0 0 = 0x10 → addr.toNat % 8 = 0 → s.permitsOthers core [5, 6] o 8 = true →
      ∃ t, exec (.deviceAccessArrival 1 addr bytes) s = .next t ∧ SameRegs s t ∧ t.journal = s.journal ∧
        (∀ k, (∀ x q, (s.slot k).cond ≠ .flagWord x q) → t.slot k = s.slot k) ∧
        t.mem.num (key 0) 8 = (s.mem.num (key 0) 8 + recNat 1 8 bytes) % 2 ^ 64 ∧
        (∀ k, (∀ i < 8, k ≠ key i) → t.mem.read k = s.mem.read k) ∧
        t.host.readData = (List.range 8).map fun i => s.mem.read (key i))) ∧
  (∀ (s : State) (addr : Word) (bytes : List Byte) (pn core w o : Nat) (p : Part), addr.getLsbD 41 = true →
    s.partAt (addr.toNat % 2 ^ 41 / 2 ^ 26) = some (pn, p) → p.out ≠ none → core < 161280 →
    s.target p (2 ^ 20) addr = some (.spad core w o) → s.host.waiting = [] → bytes ≠ [] →
    o % 4096 + bytes.length ≤ 4096 → ∃ (t : State) (x : HostAccess), exec (.deviceAccessArrival 0 addr bytes) s = .next t ∧
      t = { s with host := { s.host with waiting := [x] } } ∧ x.addr = addr.toNat ∧ x.bytes = some bytes ∧
      x.asker = .device 0) ∧
  (∀ (s : State) (ep : Word) (rec : List Byte) (p : Part), ep.toNat / 2 ^ 22 % 2 ^ 16 = 0 → rec.length = 96 →
    s.part? (ep.toNat / 2 ^ 38 % 2 ^ 4) = some p → ∃ t, exec (.deviceAccessArrival 3 ep rec) s = .next t ∧
      t.mem = s.mem ∧ t.slots = s.slots ∧ ∃ l, t.part? (ep.toNat / 2 ^ 38 % 2 ^ 4) =
        some { p with launches := p.launches ++ [l] } ∧ l.bytes = rec.drop 32)

/-! ## Encoding (R177 to R185) -/

/-- R178 to R185: words written out bit by bit from the encoding tables decode to what they stand for; ignored bits do not
count, and majors, selectors and positions that the maps do not define are refused by name. -/
def Obligations.DecodeWords : Prop :=
  decodeBundle 0x10394C0884188028 = .ok (.addi 3 2 40, some (.fadd 1 7 5 6 0)) ∧
  decodeBundle 0xD0394C08C4188028 = .ok (.addi 3 2 40, some (.fadd 1 7 5 6 0)) ∧
  decodeBundle 0b01_000001_00011_00001_00010_000000000 = .ok (.add 3 1 2, none) ∧
  decodeBundle 0b00_000100_00110_00100_00000000000000 = .ok (.addi 6 4 0, none) ∧
  decodeBundle 0b00_001000_00000_1111111111111111110 = .ok (.br 0x7FFFE, none) ∧
  decodeBundle 0b01_010000_00100_00100_00101_000000000 = .ok (.fadd 0 4 4 5 0, none) ∧
  decodeBundle 0b00_000001_000000000000000000000000 = .ok (.cnop, none) ∧
  decodeBundle 0 = .error .major ∧ decodeBundle 0x40000000 = .error .major ∧
  decodeBundle 0x8100000083000000 = .error .lixInPair ∧
  decodeBundle 0b01_000011_00011_00001_00010_000000111 = .error .selector

/-- R183 to R185: whatever decodes is a well-formed syllable, of class C in the first place of a pair and of class A in
the second; the majors that the maps mark ILLEGAL are refused whatever their other bits hold. -/
def Obligations.DecodedIsWellFormed : Prop :=
  (∀ (n : Nat) (b : Bundle), decodeBundle n = .ok b →
    b.1.wellFormed = true ∧ b.1.isSyllable = true ∧
    ∀ a, b.2 = some a → a.wellFormed = true ∧ a.isSyllable = true ∧ (∃ m, opcode b.1 = some (0, m)) ∧
      ∃ m, opcode a = some (1, m)) ∧
  (∀ w ext lone, decodeC 0x00 w ext lone = .error .major) ∧
  (∀ w, ∀ m ∈ ([0x00, 0x0D, 0x0E, 0x0F, 0x1C, 0x1D, 0x1E, 0x1F, 0x32, 0x39, 0x3A, 0x3B, 0x3C, 0x3D, 0x3E] : List Nat),
    decodeA m w = .error .major) ∧
  (∀ w ext, decodeC 0x03 w ext false = .error .lixInPair)

/-- R178 to R185: decoding the words of a well-formed instruction gives it back with every operand, alone or beside
another in a pair. -/
def Obligations.DecodeEncodeRoundTrip : Prop :=
  (∀ i : Instr, i.wellFormed = true → i.isSyllable = true →
    ∃ n, encode i = some n ∧ n < 2 ^ 64 ∧ decodeBundle n = .ok (i, none)) ∧
  (∀ c a : Instr, c.wellFormed = true → a.wellFormed = true → ∀ n, encodePair c a = some n →
    n < 2 ^ 64 ∧ decodeBundle n = .ok (c, some a))

/-! ## The step -/

/-- R54, R177, R178, R185, R187, R189, R338, and the model's own tape and order (log 4): a step takes the event at the
head of the tape as exec gives it, else issues the bundle at the pc of the slot whose core has the turn, in a gang at
its leader's pc. The bundle at an executable page that decodes runs as exec gives its syllables, read in one state, and
is settled; an undecodable one raises ILLEGAL with its bits, a pc in a scratchpad or nowhere raises PROT, and a
migrating page, or accesses that wait at the page's NI, hold the slot. That the bundle is taken at its home, past the
slot's log and view, is the model's reading (log 17). A trap of the first syllable stands alone. A STREFUSED that is due
comes before; an instruction that slept is run again with what it read. -/
def Obligations.StepRunsDecodedInstruction : Prop :=
  (∀ (s : State) (i : Instr) (rest : List Input), s.inputs = .event i :: rest → opcode i = none →
    step s = exec i { s with inputs := rest }) ∧
  (∀ (s : State) (code detail : Nat) (addr : Word), s.myGang = none → s.me.status ≠ .free →
    s.trapTogether code detail addr = ({ s.takeTrap s.cur s.me.pc code detail addr none with cur := s.cur,
                                                                                             flow := .trapped }).settle) ∧
  ∀ (s s0 : State) (c : Nat),
    ((∃ rest, s.inputs = .turn c :: rest ∧ s0 = { s with inputs := rest } ∧ s0.canIssue c = true) ∨
      (s.inputs = [] ∧ s0 = s ∧ s.turnOf = some c ∧ ((s.core c).issuing.isSome = true ∨ s.nextEvent = none))) →
    let u := s0.takeUpSlot c
    (∀ r t, u.me.redo = some r →
      exec r.instr ({ u with ir := r.ir, flow := .seq }.modMe fun t => { t with regs := r.read }) = .next t →
      step s = .next (t.endRedo r u.me.regs).settle) ∧
    (∀ k, u.me.redo = none → u.together.find? u.strefusedDue = some k → step s = exec (.strefused k) u) ∧
    (u.me.redo = none → (∀ k ∈ u.together, u.strefusedDue k = false) →
      let h := { u with cur := u.together.headD u.cur }
      let pc := h.me.pc
      (h.myTarget pc ≠ some .hbm → (∀ l o, h.myTarget pc ≠ some (.col l o)) →
        step s = .next (h.trapTogether 0x04 0 pc)) ∧
      ((h.myTarget pc = some .hbm ∨ ∃ l o, h.myTarget pc = some (.col l o) ∧ h.lost.contains l = false) →
        (h.behind h.cur pc = true ∨ h.translate h.myPart h.curPart pc .fetch = .mig →
          step s = .next ((h.hold (.migration pc)).enqueue h.cur pc).settle) ∧
        (h.behind h.cur pc = false →
        (h.translate h.myPart h.curPart pc .fetch = .prot → step s = .next (h.trapTogether 0x04 0 pc)) ∧
        (∀ level node, h.translate h.myPart h.curPart pc .fetch = .page level node →
          step s = .next (h.trapTogether 0x05 (level + if node then 16 else 0) pc)) ∧
        ∀ key leaf lk lv ns, h.translate h.myPart h.curPart pc .fetch = .ok key leaf lk lv ns →
        let bits := BitVec.ofNat 64 (h.mem.num key 8)
        let x := { (h.usePage h.myPart pc .fetch (.ok key leaf lk lv ns)).consume key 8 with ir := bits, flow := .seq }
        let v := x.together.foldl (fun t k => t.forcedReplay (coreOf k) x.me.pc) x
        (∀ r, decodeBundle bits.toNat = .error r → step s = .next (v.trapTogether 0x01 0 bits)) ∧
        (∀ g b, v.myGang = some g → decodeBundle bits.toNat = .ok b →
          step s = runGang g b { g.members.foldl (fun s k => s.takeUpSlot (coreOf k)) v with
            cur := g.members.headD v.cur, ir := bits, flow := .seq }) ∧
        (v.myGang = none →
          (∀ i t, decodeBundle bits.toNat = .ok (i, none) → exec i v = .next t →
            step s = .next (t.rememberRedo i t).settle) ∧
          (∀ i a t x, decodeBundle bits.toNat = .ok (i, some a) → exec i v = .next t → exec a v = .next x →
            (t.flow = .trapped → step s =
              .next (if x.flow = .trapped ∧ x.me.trap.cause.toNat % 2 ^ 8 = 1 then x else t).settle) ∧
            (t.flow = .held → step s = .next t.settle) ∧
            (t.flow ≠ .trapped → t.flow ≠ .held →
              (x.flow = .trapped → step s = .next x.settle) ∧
              (x.flow ≠ .trapped → t.flow = .ended → step s = .next t.settle) ∧
              (∀ r, x.flow ≠ .trapped → t.flow ≠ .ended → exec a t = .next r →
                step s = .next ({ r with flow := t.flow }.rememberRedo i t).settle)))))))

/-- Every step keeps the memory in its canonical form: keys rising, no byte listed that an unlisted one reads as
(log 1). -/
def Obligations.MemoryKeepsCanonicalForm : Prop := ∀ s t : State, Memory.wf s.mem = true → step s = .next t →
  Memory.wf t.mem = true

/-- No instruction and no event stops the machine: while its tape holds events and turns only, every step answers a next
state whose tape does too; a syllable on the tape stops it by name (log 4). -/
def Obligations.StepNeverStops : Prop :=
  (∀ s : State, TapeOk s = true → ∃ t, step s = .next t ∧ TapeOk t = true) ∧
  (∀ (s : State) (i : Instr) (rest : List Input), s.inputs = .event i :: rest → (opcode i).isSome = true →
    step s = .fault .notAnEvent)

/-- R41, R44, R53, R74, R82, R332, R389, R394: right after reset every slot is FREE with SLOTCFG 21, an empty log, no
publication and task level, MWEIGHT is 1, no partition stands and nobody owns the device; memory is in its canonical
form, and time passes. The contents of memory are the model's choice (log 1). -/
def Obligations.ResetState : Prop :=
  let s := State.reset
  (∀ k, (s.slot k).status = .free ∧ (s.slot k).sys.slotcfg = 21 ∧ (s.slot k).log.entries = [] ∧ (s.slot k).log.seq = 0 ∧
    (s.slot k).pub = 0 ∧ (s.slot k).sup = false ∧ (s.slot k).loops = [] ∧ (s.slot k).flight = [] ∧
    (s.slot k).sys.fpflags = 0 ∧ (s.slot k).sys.chkint = 0) ∧
  (∀ c, (s.core c).mweight = 1 ∧ (s.core c).phase = none ∧ (s.core c).view = [] ∧ s.canIssue c = false) ∧
  s.parts = [] ∧ s.host.owned = false ∧ s.host.epoch = 0 ∧ (∀ p, (s.port p).up = false) ∧ Memory.wf s.mem = true ∧
  TapeOk s = true ∧ step s = .next { s with time := 1 }
end

