-- ==== Sys2Proof/Laws/KMap.lean ====
section
/-! SUPPORT. Reading a sparse table after a write to it. -/

namespace Sys2Proof.Machine

@[simp] theorem lookup_insert_same {α : Type} (d x : α) (m : KMap α) (k : Nat) : lookup d (insert x m k) k = x := by
  induction m with
  | nil => simp [insert, lookup]
  | cons e m ih =>
    obtain ⟨i, y⟩ := e
    by_cases h : i = k
    · simp [insert, lookup, h]
    · by_cases h' : k < i
      · simp [insert, lookup, h, h']
      · simp [insert, lookup, h, h', ih]

theorem lookup_insert_ne {α : Type} (d x : α) (m : KMap α) {k j : Nat} (hj : j ≠ k) :
    lookup d (insert x m k) j = lookup d m j := by
  induction m with
  | nil =>
    simp only [insert, lookup]
    split
    · exact absurd ‹_› (Ne.symm hj)
    · split <;> rfl
  | cons e m ih =>
    obtain ⟨i, y⟩ := e
    by_cases h : i = k
    · subst h
      simp [insert, lookup, Ne.symm hj]
    · by_cases h' : k < i
      · simp only [insert, h, h', if_true, if_false, lookup, Ne.symm hj]
        by_cases hk : j < k
        · have : i ≠ j := by omega
          have : j < i := by omega
          simp [*]
        · simp [hk]
      · simp only [insert, h, h', if_false, lookup, ih]

@[simp] theorem insert_insert {α : Type} (x y : α) (m : KMap α) (k : Nat) :
    insert x (insert y m k) k = insert x m k := by
  induction m with
  | nil => simp [insert]
  | cons e m ih =>
    obtain ⟨i, z⟩ := e
    by_cases h : i = k
    · simp [insert, h]
    · by_cases h' : k < i
      · simp [insert, h, h']
      · simp [insert, h, h', ih]

end Sys2Proof.Machine
end

