-- ==== Sys2Proof/Laws/Memory.lean ====
section
/-! SUPPORT. Reading and writing memory at its homes, and the canonical form that every operation on it keeps. -/

namespace Sys2Proof.Machine

/-- A memory without the entry at its head is above the head's key. -/
theorem above_of_wf {i : Nat} {b : Byte} {m : Memory} (h : Memory.wf ((i, b) :: m) = true) :
    b ≠ Memory.unwritten ∧ Memory.above i m = true ∧ Memory.wf m = true := by
  simpa [Memory.wf, and_assoc] using h

theorem above_of_le {i j : Nat} {m : Memory} (hij : i ≤ j) (h : Memory.above j m = true) : Memory.above i m = true := by
  cases m with
  | nil => rfl
  | cons e m => simp only [Memory.above, decide_eq_true_eq] at *; omega

/-- A key at or below all listed ones reads as unwritten. -/
theorem read_of_above {k j : Nat} {m : Memory} (h : Memory.above k m = true) (hj : j ≤ k) :
    Memory.read m j = Memory.unwritten := by
  cases m with
  | nil => rfl
  | cons e m =>
    simp only [Memory.above, decide_eq_true_eq] at h
    have : ¬ e.1 = j := by omega
    have : j < e.1 := by omega
    simp [Memory.read, *]

theorem above_write {i k : Nat} {b : Byte} {m : Memory} (hm : Memory.above i m = true) (hk : i < k)
    (hw : Memory.wf m = true) : Memory.above i (Memory.write b m k) = true := by
  cases m with
  | nil => simp only [Memory.write]; split <;> simp [Memory.above, hk]
  | cons e m =>
    obtain ⟨j, c⟩ := e
    obtain ⟨-, hj, -⟩ := above_of_wf hw
    simp only [Memory.above, decide_eq_true_eq] at hm
    simp only [Memory.write]
    split
    · split
      · exact above_of_le (by omega) hj
      · simp [Memory.above, hk]
    · split
      · split <;> simp [Memory.above, hm, hk]
      · simp [Memory.above, hm]

/-- A write keeps the canonical form. -/
theorem wf_write {b : Byte} {m : Memory} {k : Nat} (h : Memory.wf m = true) : Memory.wf (Memory.write b m k) = true := by
  induction m with
  | nil => simp only [Memory.write]; split <;> simp [Memory.wf, Memory.above, *]
  | cons e m ih =>
    obtain ⟨i, c⟩ := e
    obtain ⟨hc, ha, hw⟩ := above_of_wf h
    simp only [Memory.write]
    split
    · subst_vars
      split
      · exact hw
      · simp [Memory.wf, *]
    · split
      · split
        · exact h
        · simp [Memory.wf, Memory.above, *]
          cases m with
          | nil => rfl
          | cons f m => simpa [Memory.above] using ha
      · have := above_write (b := b) ha (by omega : i < k) hw
        simp [Memory.wf, hc, this, ih hw]

theorem wf_writeAll {m : Memory} (h : Memory.wf m = true) (k : Nat) (bs : List Byte) :
    Memory.wf (m.writeAll k bs) = true := by
  induction bs generalizing m k with
  | nil => exact h
  | cons b bs ih => exact ih (wf_write h) (k + 1)

theorem above_filter {i : Nat} {m : Memory} {p : Host.Cell → Bool} (h : Memory.above i m = true)
    (hw : Memory.wf m = true) : Memory.above i (m.filter p) = true := by
  induction m with
  | nil => rfl
  | cons e m ih =>
    obtain ⟨j, c⟩ := e
    obtain ⟨-, ha, hm⟩ := above_of_wf hw
    simp only [Memory.above, decide_eq_true_eq] at h
    by_cases hp : p (j, c) = true
    · simp [List.filter, hp, Memory.above, h]
    · simp only [List.filter, hp]
      exact ih (above_of_le (by omega) ha) hm

/-- Dropping entries keeps the canonical form. -/
theorem wf_filter {m : Memory} (h : Memory.wf m = true) (p : Host.Cell → Bool) : Memory.wf (m.filter p) = true := by
  induction m with
  | nil => rfl
  | cons e m ih =>
    obtain ⟨j, c⟩ := e
    obtain ⟨hc, ha, hm⟩ := above_of_wf h
    by_cases hp : p (j, c) = true
    · simp [List.filter, hp, Memory.wf, hc, above_filter ha hm, ih hm]
    · simp only [List.filter, hp]; exact ih hm

/-- A read after a write to the same key gives what was written. -/
theorem read_write_same {m : Memory} (h : Memory.wf m = true) (b : Byte) (k : Nat) :
    Memory.read (Memory.write b m k) k = b := by
  induction m with
  | nil => simp only [Memory.write]; split <;> simp [Memory.read, *]
  | cons e m ih =>
    obtain ⟨i, c⟩ := e
    obtain ⟨hc, ha, hw⟩ := above_of_wf h
    simp only [Memory.write]
    split
    · subst_vars
      split
      · rw [read_of_above ha (by omega)]; exact (‹b = _›).symm
      · simp [Memory.read]
    · split
      · split
        · simp [Memory.read, *]
        · simp [Memory.read]
      · simp [Memory.read, *]

/-- A write leaves every other key alone. -/
theorem read_write_ne {m : Memory} (h : Memory.wf m = true) (b : Byte) {k j : Nat} (hj : j ≠ k) :
    Memory.read (Memory.write b m k) j = Memory.read m j := by
  induction m with
  | nil =>
    simp only [Memory.write]
    split
    · rfl
    · simp [Memory.read, Ne.symm hj]
  | cons e m ih =>
    obtain ⟨i, c⟩ := e
    obtain ⟨hc, ha, hw⟩ := above_of_wf h
    simp only [Memory.write]
    split
    · subst_vars
      split
      · simp only [Memory.read, Ne.symm hj, if_false]
        split
        · exact read_of_above ha (by omega)
        · rfl
      · simp [Memory.read, Ne.symm hj]
    · split
      · split
        · rfl
        · simp only [Memory.read, Ne.symm hj, if_false]
          split
          · have h1 : ¬ i = j := by omega
            have h2 : j < i := by omega
            simp [h1, h2]
          · rfl
      · simp only [Memory.read, ih hw]

/-- Bytes written in a row leave keys outside them alone. -/
theorem read_writeAll_out {m : Memory} (h : Memory.wf m = true) {k j : Nat} {bs : List Byte}
    (hj : j < k ∨ k + bs.length ≤ j) : Memory.read (m.writeAll k bs) j = Memory.read m j := by
  induction bs generalizing m k with
  | nil => rfl
  | cons b bs ih =>
    simp only [List.length_cons] at hj
    rw [Memory.writeAll, ih (wf_write h) (by omega), read_write_ne h b (by omega)]

/-- Bytes written in a row read back. -/
theorem read_writeAll_in {m : Memory} (h : Memory.wf m = true) {k i : Nat} {bs : List Byte} (hi : i < bs.length) :
    Memory.read (m.writeAll k bs) (k + i) = bs[i] := by
  induction bs generalizing m k i with
  | nil => simp at hi
  | cons b bs ih =>
    rw [Memory.writeAll]
    cases i with
    | zero =>
      rw [read_writeAll_out (wf_write h) (by omega)]
      exact read_write_same h b k
    | succ i =>
      have := ih (m := Memory.write b m k) (wf_write h) (k := k + 1) (i := i) (by simpa using hi)
      simpa [Nat.add_assoc, Nat.add_comm 1 i] using this

/-- Equal reads make equal memories. -/
theorem memory_ext {m n : Memory} (hm : Memory.wf m = true) (hn : Memory.wf n = true)
    (h : ∀ k, Memory.read m k = Memory.read n k) : m = n := by
  induction m generalizing n with
  | nil =>
    cases n with
    | nil => rfl
    | cons e n =>
      obtain ⟨hc, -, -⟩ := above_of_wf hn
      have := h e.1
      simp only [Memory.read, if_true] at this
      exact absurd this.symm hc
  | cons e m ih =>
    obtain ⟨i, b⟩ := e
    obtain ⟨hb, ha, hw⟩ := above_of_wf hm
    cases n with
    | nil =>
      have := h i
      simp only [Memory.read, if_true] at this
      exact absurd this hb
    | cons f n =>
      obtain ⟨j, c⟩ := f
      obtain ⟨hc, hd, hx⟩ := above_of_wf hn
      have hij : i = j := by
        rcases Nat.lt_trichotomy i j with hlt | heq | hgt
        · have := h i
          have h1 : ¬ j = i := by omega
          simp [Memory.read, h1, hlt] at this
          exact absurd this hb
        · exact heq
        · have := h j
          have h1 : ¬ i = j := by omega
          simp [Memory.read, h1, hgt] at this
          exact absurd this.symm hc
      subst hij
      have hbc : b = c := by simpa [Memory.read] using h i
      subst hbc
      have : m = n := ih hw hx fun k => by
        by_cases hk : i = k
        · subst hk
          rw [read_of_above ha (le_refl _), read_of_above hd (le_refl _)]
        · by_cases hlt : k < i
          · rw [read_of_above ha (by omega), read_of_above hd (by omega)]
          · have := h k
            simpa [Memory.read, hk, hlt] using this
      rw [this]

end Sys2Proof.Machine
end

