-- ==== Sys2Proof/Laws/State.lean ====
section
/-! SUPPORT. What each update of the state leaves alone, field by field, and reading a slot or a core after its update. -/

namespace Sys2Proof.Machine

variable (s : State)

@[simp] theorem State.setSlot_mem (k : Nat) (x : Slot) : (s.setSlot k x).mem = s.mem := rfl
@[simp] theorem State.setSlot_poison (k : Nat) (x : Slot) : (s.setSlot k x).poison = s.poison := rfl
@[simp] theorem State.setSlot_cores (k : Nat) (x : Slot) : (s.setSlot k x).cores = s.cores := rfl
@[simp] theorem State.setSlot_parts (k : Nat) (x : Slot) : (s.setSlot k x).parts = s.parts := rfl
@[simp] theorem State.setSlot_gangs (k : Nat) (x : Slot) : (s.setSlot k x).gangs = s.gangs := rfl
@[simp] theorem State.setSlot_journal (k : Nat) (x : Slot) : (s.setSlot k x).journal = s.journal := rfl
@[simp] theorem State.setSlot_lost (k : Nat) (x : Slot) : (s.setSlot k x).lost = s.lost := rfl
@[simp] theorem State.setSlot_tlb (k : Nat) (x : Slot) : (s.setSlot k x).tlb = s.tlb := rfl
@[simp] theorem State.setSlot_niKeep (k : Nat) (x : Slot) : (s.setSlot k x).niKeep = s.niKeep := rfl
@[simp] theorem State.setSlot_copies (k : Nat) (x : Slot) : (s.setSlot k x).copies = s.copies := rfl
@[simp] theorem State.setSlot_jobs (k : Nat) (x : Slot) : (s.setSlot k x).jobs = s.jobs := rfl
@[simp] theorem State.setSlot_engines (k : Nat) (x : Slot) : (s.setSlot k x).engines = s.engines := rfl
@[simp] theorem State.setSlot_masks (k : Nat) (x : Slot) : (s.setSlot k x).masks = s.masks := rfl
@[simp] theorem State.setSlot_msgs (k : Nat) (x : Slot) : (s.setSlot k x).msgs = s.msgs := rfl
@[simp] theorem State.setSlot_flits (k : Nat) (x : Slot) : (s.setSlot k x).flits = s.flits := rfl
@[simp] theorem State.setSlot_host (k : Nat) (x : Slot) : (s.setSlot k x).host = s.host := rfl
@[simp] theorem State.setSlot_mc (k : Nat) (x : Slot) : (s.setSlot k x).mc = s.mc := rfl
@[simp] theorem State.setSlot_time (k : Nat) (x : Slot) : (s.setSlot k x).time = s.time := rfl
@[simp] theorem State.setSlot_cur (k : Nat) (x : Slot) : (s.setSlot k x).cur = s.cur := rfl
@[simp] theorem State.setSlot_ir (k : Nat) (x : Slot) : (s.setSlot k x).ir = s.ir := rfl
@[simp] theorem State.setSlot_flow (k : Nat) (x : Slot) : (s.setSlot k x).flow = s.flow := rfl
@[simp] theorem State.setSlot_fresh (k : Nat) (x : Slot) : (s.setSlot k x).fresh = s.fresh := rfl
@[simp] theorem State.setSlot_inputs (k : Nat) (x : Slot) : (s.setSlot k x).inputs = s.inputs := rfl

@[simp] theorem State.modSlot_mem (k : Nat) (f : Slot → Slot) : (s.modSlot k f).mem = s.mem := rfl
@[simp] theorem State.modSlot_poison (k : Nat) (f : Slot → Slot) : (s.modSlot k f).poison = s.poison := rfl
@[simp] theorem State.modSlot_cores (k : Nat) (f : Slot → Slot) : (s.modSlot k f).cores = s.cores := rfl
@[simp] theorem State.modSlot_parts (k : Nat) (f : Slot → Slot) : (s.modSlot k f).parts = s.parts := rfl
@[simp] theorem State.modSlot_gangs (k : Nat) (f : Slot → Slot) : (s.modSlot k f).gangs = s.gangs := rfl
@[simp] theorem State.modSlot_journal (k : Nat) (f : Slot → Slot) : (s.modSlot k f).journal = s.journal := rfl
@[simp] theorem State.modSlot_lost (k : Nat) (f : Slot → Slot) : (s.modSlot k f).lost = s.lost := rfl
@[simp] theorem State.modSlot_tlb (k : Nat) (f : Slot → Slot) : (s.modSlot k f).tlb = s.tlb := rfl
@[simp] theorem State.modSlot_niKeep (k : Nat) (f : Slot → Slot) : (s.modSlot k f).niKeep = s.niKeep := rfl
@[simp] theorem State.modSlot_copies (k : Nat) (f : Slot → Slot) : (s.modSlot k f).copies = s.copies := rfl
@[simp] theorem State.modSlot_jobs (k : Nat) (f : Slot → Slot) : (s.modSlot k f).jobs = s.jobs := rfl
@[simp] theorem State.modSlot_engines (k : Nat) (f : Slot → Slot) : (s.modSlot k f).engines = s.engines := rfl
@[simp] theorem State.modSlot_masks (k : Nat) (f : Slot → Slot) : (s.modSlot k f).masks = s.masks := rfl
@[simp] theorem State.modSlot_msgs (k : Nat) (f : Slot → Slot) : (s.modSlot k f).msgs = s.msgs := rfl
@[simp] theorem State.modSlot_flits (k : Nat) (f : Slot → Slot) : (s.modSlot k f).flits = s.flits := rfl
@[simp] theorem State.modSlot_host (k : Nat) (f : Slot → Slot) : (s.modSlot k f).host = s.host := rfl
@[simp] theorem State.modSlot_mc (k : Nat) (f : Slot → Slot) : (s.modSlot k f).mc = s.mc := rfl
@[simp] theorem State.modSlot_time (k : Nat) (f : Slot → Slot) : (s.modSlot k f).time = s.time := rfl
@[simp] theorem State.modSlot_cur (k : Nat) (f : Slot → Slot) : (s.modSlot k f).cur = s.cur := rfl
@[simp] theorem State.modSlot_ir (k : Nat) (f : Slot → Slot) : (s.modSlot k f).ir = s.ir := rfl
@[simp] theorem State.modSlot_flow (k : Nat) (f : Slot → Slot) : (s.modSlot k f).flow = s.flow := rfl
@[simp] theorem State.modSlot_fresh (k : Nat) (f : Slot → Slot) : (s.modSlot k f).fresh = s.fresh := rfl
@[simp] theorem State.modSlot_inputs (k : Nat) (f : Slot → Slot) : (s.modSlot k f).inputs = s.inputs := rfl

@[simp] theorem State.modMe_mem (f : Slot → Slot) : (s.modMe f).mem = s.mem := rfl
@[simp] theorem State.modMe_poison (f : Slot → Slot) : (s.modMe f).poison = s.poison := rfl
@[simp] theorem State.modMe_cores (f : Slot → Slot) : (s.modMe f).cores = s.cores := rfl
@[simp] theorem State.modMe_parts (f : Slot → Slot) : (s.modMe f).parts = s.parts := rfl
@[simp] theorem State.modMe_gangs (f : Slot → Slot) : (s.modMe f).gangs = s.gangs := rfl
@[simp] theorem State.modMe_journal (f : Slot → Slot) : (s.modMe f).journal = s.journal := rfl
@[simp] theorem State.modMe_lost (f : Slot → Slot) : (s.modMe f).lost = s.lost := rfl
@[simp] theorem State.modMe_tlb (f : Slot → Slot) : (s.modMe f).tlb = s.tlb := rfl
@[simp] theorem State.modMe_niKeep (f : Slot → Slot) : (s.modMe f).niKeep = s.niKeep := rfl
@[simp] theorem State.modMe_copies (f : Slot → Slot) : (s.modMe f).copies = s.copies := rfl
@[simp] theorem State.modMe_jobs (f : Slot → Slot) : (s.modMe f).jobs = s.jobs := rfl
@[simp] theorem State.modMe_engines (f : Slot → Slot) : (s.modMe f).engines = s.engines := rfl
@[simp] theorem State.modMe_masks (f : Slot → Slot) : (s.modMe f).masks = s.masks := rfl
@[simp] theorem State.modMe_msgs (f : Slot → Slot) : (s.modMe f).msgs = s.msgs := rfl
@[simp] theorem State.modMe_flits (f : Slot → Slot) : (s.modMe f).flits = s.flits := rfl
@[simp] theorem State.modMe_host (f : Slot → Slot) : (s.modMe f).host = s.host := rfl
@[simp] theorem State.modMe_mc (f : Slot → Slot) : (s.modMe f).mc = s.mc := rfl
@[simp] theorem State.modMe_time (f : Slot → Slot) : (s.modMe f).time = s.time := rfl
@[simp] theorem State.modMe_cur (f : Slot → Slot) : (s.modMe f).cur = s.cur := rfl
@[simp] theorem State.modMe_ir (f : Slot → Slot) : (s.modMe f).ir = s.ir := rfl
@[simp] theorem State.modMe_flow (f : Slot → Slot) : (s.modMe f).flow = s.flow := rfl
@[simp] theorem State.modMe_fresh (f : Slot → Slot) : (s.modMe f).fresh = s.fresh := rfl
@[simp] theorem State.modMe_inputs (f : Slot → Slot) : (s.modMe f).inputs = s.inputs := rfl

@[simp] theorem State.setCore_mem (k : Nat) (x : Core) : (s.setCore k x).mem = s.mem := rfl
@[simp] theorem State.setCore_poison (k : Nat) (x : Core) : (s.setCore k x).poison = s.poison := rfl
@[simp] theorem State.setCore_slots (k : Nat) (x : Core) : (s.setCore k x).slots = s.slots := rfl
@[simp] theorem State.setCore_parts (k : Nat) (x : Core) : (s.setCore k x).parts = s.parts := rfl
@[simp] theorem State.setCore_gangs (k : Nat) (x : Core) : (s.setCore k x).gangs = s.gangs := rfl
@[simp] theorem State.setCore_journal (k : Nat) (x : Core) : (s.setCore k x).journal = s.journal := rfl
@[simp] theorem State.setCore_lost (k : Nat) (x : Core) : (s.setCore k x).lost = s.lost := rfl
@[simp] theorem State.setCore_tlb (k : Nat) (x : Core) : (s.setCore k x).tlb = s.tlb := rfl
@[simp] theorem State.setCore_niKeep (k : Nat) (x : Core) : (s.setCore k x).niKeep = s.niKeep := rfl
@[simp] theorem State.setCore_copies (k : Nat) (x : Core) : (s.setCore k x).copies = s.copies := rfl
@[simp] theorem State.setCore_jobs (k : Nat) (x : Core) : (s.setCore k x).jobs = s.jobs := rfl
@[simp] theorem State.setCore_engines (k : Nat) (x : Core) : (s.setCore k x).engines = s.engines := rfl
@[simp] theorem State.setCore_masks (k : Nat) (x : Core) : (s.setCore k x).masks = s.masks := rfl
@[simp] theorem State.setCore_msgs (k : Nat) (x : Core) : (s.setCore k x).msgs = s.msgs := rfl
@[simp] theorem State.setCore_flits (k : Nat) (x : Core) : (s.setCore k x).flits = s.flits := rfl
@[simp] theorem State.setCore_host (k : Nat) (x : Core) : (s.setCore k x).host = s.host := rfl
@[simp] theorem State.setCore_mc (k : Nat) (x : Core) : (s.setCore k x).mc = s.mc := rfl
@[simp] theorem State.setCore_time (k : Nat) (x : Core) : (s.setCore k x).time = s.time := rfl
@[simp] theorem State.setCore_cur (k : Nat) (x : Core) : (s.setCore k x).cur = s.cur := rfl
@[simp] theorem State.setCore_ir (k : Nat) (x : Core) : (s.setCore k x).ir = s.ir := rfl
@[simp] theorem State.setCore_flow (k : Nat) (x : Core) : (s.setCore k x).flow = s.flow := rfl
@[simp] theorem State.setCore_fresh (k : Nat) (x : Core) : (s.setCore k x).fresh = s.fresh := rfl
@[simp] theorem State.setCore_inputs (k : Nat) (x : Core) : (s.setCore k x).inputs = s.inputs := rfl

@[simp] theorem State.modCore_mem (k : Nat) (f : Core → Core) : (s.modCore k f).mem = s.mem := rfl
@[simp] theorem State.modCore_poison (k : Nat) (f : Core → Core) : (s.modCore k f).poison = s.poison := rfl
@[simp] theorem State.modCore_slots (k : Nat) (f : Core → Core) : (s.modCore k f).slots = s.slots := rfl
@[simp] theorem State.modCore_parts (k : Nat) (f : Core → Core) : (s.modCore k f).parts = s.parts := rfl
@[simp] theorem State.modCore_gangs (k : Nat) (f : Core → Core) : (s.modCore k f).gangs = s.gangs := rfl
@[simp] theorem State.modCore_journal (k : Nat) (f : Core → Core) : (s.modCore k f).journal = s.journal := rfl
@[simp] theorem State.modCore_lost (k : Nat) (f : Core → Core) : (s.modCore k f).lost = s.lost := rfl
@[simp] theorem State.modCore_tlb (k : Nat) (f : Core → Core) : (s.modCore k f).tlb = s.tlb := rfl
@[simp] theorem State.modCore_niKeep (k : Nat) (f : Core → Core) : (s.modCore k f).niKeep = s.niKeep := rfl
@[simp] theorem State.modCore_copies (k : Nat) (f : Core → Core) : (s.modCore k f).copies = s.copies := rfl
@[simp] theorem State.modCore_jobs (k : Nat) (f : Core → Core) : (s.modCore k f).jobs = s.jobs := rfl
@[simp] theorem State.modCore_engines (k : Nat) (f : Core → Core) : (s.modCore k f).engines = s.engines := rfl
@[simp] theorem State.modCore_masks (k : Nat) (f : Core → Core) : (s.modCore k f).masks = s.masks := rfl
@[simp] theorem State.modCore_msgs (k : Nat) (f : Core → Core) : (s.modCore k f).msgs = s.msgs := rfl
@[simp] theorem State.modCore_flits (k : Nat) (f : Core → Core) : (s.modCore k f).flits = s.flits := rfl
@[simp] theorem State.modCore_host (k : Nat) (f : Core → Core) : (s.modCore k f).host = s.host := rfl
@[simp] theorem State.modCore_mc (k : Nat) (f : Core → Core) : (s.modCore k f).mc = s.mc := rfl
@[simp] theorem State.modCore_time (k : Nat) (f : Core → Core) : (s.modCore k f).time = s.time := rfl
@[simp] theorem State.modCore_cur (k : Nat) (f : Core → Core) : (s.modCore k f).cur = s.cur := rfl
@[simp] theorem State.modCore_ir (k : Nat) (f : Core → Core) : (s.modCore k f).ir = s.ir := rfl
@[simp] theorem State.modCore_flow (k : Nat) (f : Core → Core) : (s.modCore k f).flow = s.flow := rfl
@[simp] theorem State.modCore_fresh (k : Nat) (f : Core → Core) : (s.modCore k f).fresh = s.fresh := rfl
@[simp] theorem State.modCore_inputs (k : Nat) (f : Core → Core) : (s.modCore k f).inputs = s.inputs := rfl

@[simp] theorem State.modMyCore_mem (f : Core → Core) : (s.modMyCore f).mem = s.mem := rfl
@[simp] theorem State.modMyCore_poison (f : Core → Core) : (s.modMyCore f).poison = s.poison := rfl
@[simp] theorem State.modMyCore_slots (f : Core → Core) : (s.modMyCore f).slots = s.slots := rfl
@[simp] theorem State.modMyCore_parts (f : Core → Core) : (s.modMyCore f).parts = s.parts := rfl
@[simp] theorem State.modMyCore_gangs (f : Core → Core) : (s.modMyCore f).gangs = s.gangs := rfl
@[simp] theorem State.modMyCore_journal (f : Core → Core) : (s.modMyCore f).journal = s.journal := rfl
@[simp] theorem State.modMyCore_lost (f : Core → Core) : (s.modMyCore f).lost = s.lost := rfl
@[simp] theorem State.modMyCore_tlb (f : Core → Core) : (s.modMyCore f).tlb = s.tlb := rfl
@[simp] theorem State.modMyCore_niKeep (f : Core → Core) : (s.modMyCore f).niKeep = s.niKeep := rfl
@[simp] theorem State.modMyCore_copies (f : Core → Core) : (s.modMyCore f).copies = s.copies := rfl
@[simp] theorem State.modMyCore_jobs (f : Core → Core) : (s.modMyCore f).jobs = s.jobs := rfl
@[simp] theorem State.modMyCore_engines (f : Core → Core) : (s.modMyCore f).engines = s.engines := rfl
@[simp] theorem State.modMyCore_masks (f : Core → Core) : (s.modMyCore f).masks = s.masks := rfl
@[simp] theorem State.modMyCore_msgs (f : Core → Core) : (s.modMyCore f).msgs = s.msgs := rfl
@[simp] theorem State.modMyCore_flits (f : Core → Core) : (s.modMyCore f).flits = s.flits := rfl
@[simp] theorem State.modMyCore_host (f : Core → Core) : (s.modMyCore f).host = s.host := rfl
@[simp] theorem State.modMyCore_mc (f : Core → Core) : (s.modMyCore f).mc = s.mc := rfl
@[simp] theorem State.modMyCore_time (f : Core → Core) : (s.modMyCore f).time = s.time := rfl
@[simp] theorem State.modMyCore_cur (f : Core → Core) : (s.modMyCore f).cur = s.cur := rfl
@[simp] theorem State.modMyCore_ir (f : Core → Core) : (s.modMyCore f).ir = s.ir := rfl
@[simp] theorem State.modMyCore_flow (f : Core → Core) : (s.modMyCore f).flow = s.flow := rfl
@[simp] theorem State.modMyCore_fresh (f : Core → Core) : (s.modMyCore f).fresh = s.fresh := rfl
@[simp] theorem State.modMyCore_inputs (f : Core → Core) : (s.modMyCore f).inputs = s.inputs := rfl

@[simp] theorem State.setPart_mem (n : Nat) (x : Part) : (s.setPart n x).mem = s.mem := rfl
@[simp] theorem State.setPart_poison (n : Nat) (x : Part) : (s.setPart n x).poison = s.poison := rfl
@[simp] theorem State.setPart_slots (n : Nat) (x : Part) : (s.setPart n x).slots = s.slots := rfl
@[simp] theorem State.setPart_cores (n : Nat) (x : Part) : (s.setPart n x).cores = s.cores := rfl
@[simp] theorem State.setPart_gangs (n : Nat) (x : Part) : (s.setPart n x).gangs = s.gangs := rfl
@[simp] theorem State.setPart_journal (n : Nat) (x : Part) : (s.setPart n x).journal = s.journal := rfl
@[simp] theorem State.setPart_lost (n : Nat) (x : Part) : (s.setPart n x).lost = s.lost := rfl
@[simp] theorem State.setPart_tlb (n : Nat) (x : Part) : (s.setPart n x).tlb = s.tlb := rfl
@[simp] theorem State.setPart_niKeep (n : Nat) (x : Part) : (s.setPart n x).niKeep = s.niKeep := rfl
@[simp] theorem State.setPart_copies (n : Nat) (x : Part) : (s.setPart n x).copies = s.copies := rfl
@[simp] theorem State.setPart_jobs (n : Nat) (x : Part) : (s.setPart n x).jobs = s.jobs := rfl
@[simp] theorem State.setPart_engines (n : Nat) (x : Part) : (s.setPart n x).engines = s.engines := rfl
@[simp] theorem State.setPart_masks (n : Nat) (x : Part) : (s.setPart n x).masks = s.masks := rfl
@[simp] theorem State.setPart_msgs (n : Nat) (x : Part) : (s.setPart n x).msgs = s.msgs := rfl
@[simp] theorem State.setPart_flits (n : Nat) (x : Part) : (s.setPart n x).flits = s.flits := rfl
@[simp] theorem State.setPart_host (n : Nat) (x : Part) : (s.setPart n x).host = s.host := rfl
@[simp] theorem State.setPart_mc (n : Nat) (x : Part) : (s.setPart n x).mc = s.mc := rfl
@[simp] theorem State.setPart_time (n : Nat) (x : Part) : (s.setPart n x).time = s.time := rfl
@[simp] theorem State.setPart_cur (n : Nat) (x : Part) : (s.setPart n x).cur = s.cur := rfl
@[simp] theorem State.setPart_ir (n : Nat) (x : Part) : (s.setPart n x).ir = s.ir := rfl
@[simp] theorem State.setPart_flow (n : Nat) (x : Part) : (s.setPart n x).flow = s.flow := rfl
@[simp] theorem State.setPart_fresh (n : Nat) (x : Part) : (s.setPart n x).fresh = s.fresh := rfl
@[simp] theorem State.setPart_inputs (n : Nat) (x : Part) : (s.setPart n x).inputs = s.inputs := rfl

@[simp] theorem State.result_mem (lat : Nat) (w : Landing) : (s.result lat w).mem = s.mem := rfl
@[simp] theorem State.result_poison (lat : Nat) (w : Landing) : (s.result lat w).poison = s.poison := rfl
@[simp] theorem State.result_cores (lat : Nat) (w : Landing) : (s.result lat w).cores = s.cores := rfl
@[simp] theorem State.result_parts (lat : Nat) (w : Landing) : (s.result lat w).parts = s.parts := rfl
@[simp] theorem State.result_gangs (lat : Nat) (w : Landing) : (s.result lat w).gangs = s.gangs := rfl
@[simp] theorem State.result_journal (lat : Nat) (w : Landing) : (s.result lat w).journal = s.journal := rfl
@[simp] theorem State.result_lost (lat : Nat) (w : Landing) : (s.result lat w).lost = s.lost := rfl
@[simp] theorem State.result_tlb (lat : Nat) (w : Landing) : (s.result lat w).tlb = s.tlb := rfl
@[simp] theorem State.result_niKeep (lat : Nat) (w : Landing) : (s.result lat w).niKeep = s.niKeep := rfl
@[simp] theorem State.result_copies (lat : Nat) (w : Landing) : (s.result lat w).copies = s.copies := rfl
@[simp] theorem State.result_jobs (lat : Nat) (w : Landing) : (s.result lat w).jobs = s.jobs := rfl
@[simp] theorem State.result_engines (lat : Nat) (w : Landing) : (s.result lat w).engines = s.engines := rfl
@[simp] theorem State.result_masks (lat : Nat) (w : Landing) : (s.result lat w).masks = s.masks := rfl
@[simp] theorem State.result_msgs (lat : Nat) (w : Landing) : (s.result lat w).msgs = s.msgs := rfl
@[simp] theorem State.result_flits (lat : Nat) (w : Landing) : (s.result lat w).flits = s.flits := rfl
@[simp] theorem State.result_host (lat : Nat) (w : Landing) : (s.result lat w).host = s.host := rfl
@[simp] theorem State.result_mc (lat : Nat) (w : Landing) : (s.result lat w).mc = s.mc := rfl
@[simp] theorem State.result_time (lat : Nat) (w : Landing) : (s.result lat w).time = s.time := rfl
@[simp] theorem State.result_cur (lat : Nat) (w : Landing) : (s.result lat w).cur = s.cur := rfl
@[simp] theorem State.result_ir (lat : Nat) (w : Landing) : (s.result lat w).ir = s.ir := rfl
@[simp] theorem State.result_flow (lat : Nat) (w : Landing) : (s.result lat w).flow = s.flow := rfl
@[simp] theorem State.result_fresh (lat : Nat) (w : Landing) : (s.result lat w).fresh = s.fresh := rfl
@[simp] theorem State.result_inputs (lat : Nat) (w : Landing) : (s.result lat w).inputs = s.inputs := rfl

@[simp] theorem State.setS_mem (lat : Nat) (r : SReg) (v : Word) : (s.setS lat r v).mem = s.mem := rfl
@[simp] theorem State.setS_poison (lat : Nat) (r : SReg) (v : Word) : (s.setS lat r v).poison = s.poison := rfl
@[simp] theorem State.setS_cores (lat : Nat) (r : SReg) (v : Word) : (s.setS lat r v).cores = s.cores := rfl
@[simp] theorem State.setS_parts (lat : Nat) (r : SReg) (v : Word) : (s.setS lat r v).parts = s.parts := rfl
@[simp] theorem State.setS_gangs (lat : Nat) (r : SReg) (v : Word) : (s.setS lat r v).gangs = s.gangs := rfl
@[simp] theorem State.setS_journal (lat : Nat) (r : SReg) (v : Word) : (s.setS lat r v).journal = s.journal := rfl
@[simp] theorem State.setS_lost (lat : Nat) (r : SReg) (v : Word) : (s.setS lat r v).lost = s.lost := rfl
@[simp] theorem State.setS_tlb (lat : Nat) (r : SReg) (v : Word) : (s.setS lat r v).tlb = s.tlb := rfl
@[simp] theorem State.setS_niKeep (lat : Nat) (r : SReg) (v : Word) : (s.setS lat r v).niKeep = s.niKeep := rfl
@[simp] theorem State.setS_copies (lat : Nat) (r : SReg) (v : Word) : (s.setS lat r v).copies = s.copies := rfl
@[simp] theorem State.setS_jobs (lat : Nat) (r : SReg) (v : Word) : (s.setS lat r v).jobs = s.jobs := rfl
@[simp] theorem State.setS_engines (lat : Nat) (r : SReg) (v : Word) : (s.setS lat r v).engines = s.engines := rfl
@[simp] theorem State.setS_masks (lat : Nat) (r : SReg) (v : Word) : (s.setS lat r v).masks = s.masks := rfl
@[simp] theorem State.setS_msgs (lat : Nat) (r : SReg) (v : Word) : (s.setS lat r v).msgs = s.msgs := rfl
@[simp] theorem State.setS_flits (lat : Nat) (r : SReg) (v : Word) : (s.setS lat r v).flits = s.flits := rfl
@[simp] theorem State.setS_host (lat : Nat) (r : SReg) (v : Word) : (s.setS lat r v).host = s.host := rfl
@[simp] theorem State.setS_mc (lat : Nat) (r : SReg) (v : Word) : (s.setS lat r v).mc = s.mc := rfl
@[simp] theorem State.setS_time (lat : Nat) (r : SReg) (v : Word) : (s.setS lat r v).time = s.time := rfl
@[simp] theorem State.setS_cur (lat : Nat) (r : SReg) (v : Word) : (s.setS lat r v).cur = s.cur := rfl
@[simp] theorem State.setS_ir (lat : Nat) (r : SReg) (v : Word) : (s.setS lat r v).ir = s.ir := rfl
@[simp] theorem State.setS_flow (lat : Nat) (r : SReg) (v : Word) : (s.setS lat r v).flow = s.flow := rfl
@[simp] theorem State.setS_fresh (lat : Nat) (r : SReg) (v : Word) : (s.setS lat r v).fresh = s.fresh := rfl
@[simp] theorem State.setS_inputs (lat : Nat) (r : SReg) (v : Word) : (s.setS lat r v).inputs = s.inputs := rfl

@[simp] theorem State.setV_mem (lat : Nat) (r : VReg) (v : Vec) : (s.setV lat r v).mem = s.mem := rfl
@[simp] theorem State.setV_poison (lat : Nat) (r : VReg) (v : Vec) : (s.setV lat r v).poison = s.poison := rfl
@[simp] theorem State.setV_cores (lat : Nat) (r : VReg) (v : Vec) : (s.setV lat r v).cores = s.cores := rfl
@[simp] theorem State.setV_parts (lat : Nat) (r : VReg) (v : Vec) : (s.setV lat r v).parts = s.parts := rfl
@[simp] theorem State.setV_gangs (lat : Nat) (r : VReg) (v : Vec) : (s.setV lat r v).gangs = s.gangs := rfl
@[simp] theorem State.setV_journal (lat : Nat) (r : VReg) (v : Vec) : (s.setV lat r v).journal = s.journal := rfl
@[simp] theorem State.setV_lost (lat : Nat) (r : VReg) (v : Vec) : (s.setV lat r v).lost = s.lost := rfl
@[simp] theorem State.setV_tlb (lat : Nat) (r : VReg) (v : Vec) : (s.setV lat r v).tlb = s.tlb := rfl
@[simp] theorem State.setV_niKeep (lat : Nat) (r : VReg) (v : Vec) : (s.setV lat r v).niKeep = s.niKeep := rfl
@[simp] theorem State.setV_copies (lat : Nat) (r : VReg) (v : Vec) : (s.setV lat r v).copies = s.copies := rfl
@[simp] theorem State.setV_jobs (lat : Nat) (r : VReg) (v : Vec) : (s.setV lat r v).jobs = s.jobs := rfl
@[simp] theorem State.setV_engines (lat : Nat) (r : VReg) (v : Vec) : (s.setV lat r v).engines = s.engines := rfl
@[simp] theorem State.setV_masks (lat : Nat) (r : VReg) (v : Vec) : (s.setV lat r v).masks = s.masks := rfl
@[simp] theorem State.setV_msgs (lat : Nat) (r : VReg) (v : Vec) : (s.setV lat r v).msgs = s.msgs := rfl
@[simp] theorem State.setV_flits (lat : Nat) (r : VReg) (v : Vec) : (s.setV lat r v).flits = s.flits := rfl
@[simp] theorem State.setV_host (lat : Nat) (r : VReg) (v : Vec) : (s.setV lat r v).host = s.host := rfl
@[simp] theorem State.setV_mc (lat : Nat) (r : VReg) (v : Vec) : (s.setV lat r v).mc = s.mc := rfl
@[simp] theorem State.setV_time (lat : Nat) (r : VReg) (v : Vec) : (s.setV lat r v).time = s.time := rfl
@[simp] theorem State.setV_cur (lat : Nat) (r : VReg) (v : Vec) : (s.setV lat r v).cur = s.cur := rfl
@[simp] theorem State.setV_ir (lat : Nat) (r : VReg) (v : Vec) : (s.setV lat r v).ir = s.ir := rfl
@[simp] theorem State.setV_flow (lat : Nat) (r : VReg) (v : Vec) : (s.setV lat r v).flow = s.flow := rfl
@[simp] theorem State.setV_fresh (lat : Nat) (r : VReg) (v : Vec) : (s.setV lat r v).fresh = s.fresh := rfl
@[simp] theorem State.setV_inputs (lat : Nat) (r : VReg) (v : Vec) : (s.setV lat r v).inputs = s.inputs := rfl

@[simp] theorem State.setP_mem (lat : Nat) (r : PReg) (v : Bool) : (s.setP lat r v).mem = s.mem := rfl
@[simp] theorem State.setP_poison (lat : Nat) (r : PReg) (v : Bool) : (s.setP lat r v).poison = s.poison := rfl
@[simp] theorem State.setP_cores (lat : Nat) (r : PReg) (v : Bool) : (s.setP lat r v).cores = s.cores := rfl
@[simp] theorem State.setP_parts (lat : Nat) (r : PReg) (v : Bool) : (s.setP lat r v).parts = s.parts := rfl
@[simp] theorem State.setP_gangs (lat : Nat) (r : PReg) (v : Bool) : (s.setP lat r v).gangs = s.gangs := rfl
@[simp] theorem State.setP_journal (lat : Nat) (r : PReg) (v : Bool) : (s.setP lat r v).journal = s.journal := rfl
@[simp] theorem State.setP_lost (lat : Nat) (r : PReg) (v : Bool) : (s.setP lat r v).lost = s.lost := rfl
@[simp] theorem State.setP_tlb (lat : Nat) (r : PReg) (v : Bool) : (s.setP lat r v).tlb = s.tlb := rfl
@[simp] theorem State.setP_niKeep (lat : Nat) (r : PReg) (v : Bool) : (s.setP lat r v).niKeep = s.niKeep := rfl
@[simp] theorem State.setP_copies (lat : Nat) (r : PReg) (v : Bool) : (s.setP lat r v).copies = s.copies := rfl
@[simp] theorem State.setP_jobs (lat : Nat) (r : PReg) (v : Bool) : (s.setP lat r v).jobs = s.jobs := rfl
@[simp] theorem State.setP_engines (lat : Nat) (r : PReg) (v : Bool) : (s.setP lat r v).engines = s.engines := rfl
@[simp] theorem State.setP_masks (lat : Nat) (r : PReg) (v : Bool) : (s.setP lat r v).masks = s.masks := rfl
@[simp] theorem State.setP_msgs (lat : Nat) (r : PReg) (v : Bool) : (s.setP lat r v).msgs = s.msgs := rfl
@[simp] theorem State.setP_flits (lat : Nat) (r : PReg) (v : Bool) : (s.setP lat r v).flits = s.flits := rfl
@[simp] theorem State.setP_host (lat : Nat) (r : PReg) (v : Bool) : (s.setP lat r v).host = s.host := rfl
@[simp] theorem State.setP_mc (lat : Nat) (r : PReg) (v : Bool) : (s.setP lat r v).mc = s.mc := rfl
@[simp] theorem State.setP_time (lat : Nat) (r : PReg) (v : Bool) : (s.setP lat r v).time = s.time := rfl
@[simp] theorem State.setP_cur (lat : Nat) (r : PReg) (v : Bool) : (s.setP lat r v).cur = s.cur := rfl
@[simp] theorem State.setP_ir (lat : Nat) (r : PReg) (v : Bool) : (s.setP lat r v).ir = s.ir := rfl
@[simp] theorem State.setP_flow (lat : Nat) (r : PReg) (v : Bool) : (s.setP lat r v).flow = s.flow := rfl
@[simp] theorem State.setP_fresh (lat : Nat) (r : PReg) (v : Bool) : (s.setP lat r v).fresh = s.fresh := rfl
@[simp] theorem State.setP_inputs (lat : Nat) (r : PReg) (v : Bool) : (s.setP lat r v).inputs = s.inputs := rfl

@[simp] theorem State.branch_mem (a : Word) : (s.branch a).mem = s.mem := rfl
@[simp] theorem State.branch_poison (a : Word) : (s.branch a).poison = s.poison := rfl
@[simp] theorem State.branch_slots (a : Word) : (s.branch a).slots = s.slots := rfl
@[simp] theorem State.branch_cores (a : Word) : (s.branch a).cores = s.cores := rfl
@[simp] theorem State.branch_parts (a : Word) : (s.branch a).parts = s.parts := rfl
@[simp] theorem State.branch_gangs (a : Word) : (s.branch a).gangs = s.gangs := rfl
@[simp] theorem State.branch_journal (a : Word) : (s.branch a).journal = s.journal := rfl
@[simp] theorem State.branch_lost (a : Word) : (s.branch a).lost = s.lost := rfl
@[simp] theorem State.branch_tlb (a : Word) : (s.branch a).tlb = s.tlb := rfl
@[simp] theorem State.branch_niKeep (a : Word) : (s.branch a).niKeep = s.niKeep := rfl
@[simp] theorem State.branch_copies (a : Word) : (s.branch a).copies = s.copies := rfl
@[simp] theorem State.branch_jobs (a : Word) : (s.branch a).jobs = s.jobs := rfl
@[simp] theorem State.branch_engines (a : Word) : (s.branch a).engines = s.engines := rfl
@[simp] theorem State.branch_masks (a : Word) : (s.branch a).masks = s.masks := rfl
@[simp] theorem State.branch_msgs (a : Word) : (s.branch a).msgs = s.msgs := rfl
@[simp] theorem State.branch_flits (a : Word) : (s.branch a).flits = s.flits := rfl
@[simp] theorem State.branch_host (a : Word) : (s.branch a).host = s.host := rfl
@[simp] theorem State.branch_mc (a : Word) : (s.branch a).mc = s.mc := rfl
@[simp] theorem State.branch_time (a : Word) : (s.branch a).time = s.time := rfl
@[simp] theorem State.branch_cur (a : Word) : (s.branch a).cur = s.cur := rfl
@[simp] theorem State.branch_ir (a : Word) : (s.branch a).ir = s.ir := rfl
@[simp] theorem State.branch_fresh (a : Word) : (s.branch a).fresh = s.fresh := rfl
@[simp] theorem State.branch_inputs (a : Word) : (s.branch a).inputs = s.inputs := rfl

@[simp] theorem State.switchAfter_mem : (s.switchAfter).mem = s.mem := rfl
@[simp] theorem State.switchAfter_poison : (s.switchAfter).poison = s.poison := rfl
@[simp] theorem State.switchAfter_slots : (s.switchAfter).slots = s.slots := rfl
@[simp] theorem State.switchAfter_cores : (s.switchAfter).cores = s.cores := rfl
@[simp] theorem State.switchAfter_parts : (s.switchAfter).parts = s.parts := rfl
@[simp] theorem State.switchAfter_gangs : (s.switchAfter).gangs = s.gangs := rfl
@[simp] theorem State.switchAfter_journal : (s.switchAfter).journal = s.journal := rfl
@[simp] theorem State.switchAfter_lost : (s.switchAfter).lost = s.lost := rfl
@[simp] theorem State.switchAfter_tlb : (s.switchAfter).tlb = s.tlb := rfl
@[simp] theorem State.switchAfter_niKeep : (s.switchAfter).niKeep = s.niKeep := rfl
@[simp] theorem State.switchAfter_copies : (s.switchAfter).copies = s.copies := rfl
@[simp] theorem State.switchAfter_jobs : (s.switchAfter).jobs = s.jobs := rfl
@[simp] theorem State.switchAfter_engines : (s.switchAfter).engines = s.engines := rfl
@[simp] theorem State.switchAfter_masks : (s.switchAfter).masks = s.masks := rfl
@[simp] theorem State.switchAfter_msgs : (s.switchAfter).msgs = s.msgs := rfl
@[simp] theorem State.switchAfter_flits : (s.switchAfter).flits = s.flits := rfl
@[simp] theorem State.switchAfter_host : (s.switchAfter).host = s.host := rfl
@[simp] theorem State.switchAfter_mc : (s.switchAfter).mc = s.mc := rfl
@[simp] theorem State.switchAfter_time : (s.switchAfter).time = s.time := rfl
@[simp] theorem State.switchAfter_cur : (s.switchAfter).cur = s.cur := rfl
@[simp] theorem State.switchAfter_ir : (s.switchAfter).ir = s.ir := rfl
@[simp] theorem State.switchAfter_fresh : (s.switchAfter).fresh = s.fresh := rfl
@[simp] theorem State.switchAfter_inputs : (s.switchAfter).inputs = s.inputs := rfl

@[simp] theorem State.hold_mem (c : Cond) : (s.hold c).mem = s.mem := rfl
@[simp] theorem State.hold_poison (c : Cond) : (s.hold c).poison = s.poison := rfl
@[simp] theorem State.hold_cores (c : Cond) : (s.hold c).cores = s.cores := rfl
@[simp] theorem State.hold_parts (c : Cond) : (s.hold c).parts = s.parts := rfl
@[simp] theorem State.hold_gangs (c : Cond) : (s.hold c).gangs = s.gangs := rfl
@[simp] theorem State.hold_journal (c : Cond) : (s.hold c).journal = s.journal := rfl
@[simp] theorem State.hold_lost (c : Cond) : (s.hold c).lost = s.lost := rfl
@[simp] theorem State.hold_tlb (c : Cond) : (s.hold c).tlb = s.tlb := rfl
@[simp] theorem State.hold_niKeep (c : Cond) : (s.hold c).niKeep = s.niKeep := rfl
@[simp] theorem State.hold_copies (c : Cond) : (s.hold c).copies = s.copies := rfl
@[simp] theorem State.hold_jobs (c : Cond) : (s.hold c).jobs = s.jobs := rfl
@[simp] theorem State.hold_engines (c : Cond) : (s.hold c).engines = s.engines := rfl
@[simp] theorem State.hold_masks (c : Cond) : (s.hold c).masks = s.masks := rfl
@[simp] theorem State.hold_msgs (c : Cond) : (s.hold c).msgs = s.msgs := rfl
@[simp] theorem State.hold_flits (c : Cond) : (s.hold c).flits = s.flits := rfl
@[simp] theorem State.hold_host (c : Cond) : (s.hold c).host = s.host := rfl
@[simp] theorem State.hold_mc (c : Cond) : (s.hold c).mc = s.mc := rfl
@[simp] theorem State.hold_time (c : Cond) : (s.hold c).time = s.time := rfl
@[simp] theorem State.hold_cur (c : Cond) : (s.hold c).cur = s.cur := rfl
@[simp] theorem State.hold_ir (c : Cond) : (s.hold c).ir = s.ir := rfl
@[simp] theorem State.hold_fresh (c : Cond) : (s.hold c).fresh = s.fresh := rfl
@[simp] theorem State.hold_inputs (c : Cond) : (s.hold c).inputs = s.inputs := rfl

@[simp] theorem State.sleep_mem (c : Cond) : (s.sleep c).mem = s.mem := rfl
@[simp] theorem State.sleep_poison (c : Cond) : (s.sleep c).poison = s.poison := rfl
@[simp] theorem State.sleep_cores (c : Cond) : (s.sleep c).cores = s.cores := rfl
@[simp] theorem State.sleep_parts (c : Cond) : (s.sleep c).parts = s.parts := rfl
@[simp] theorem State.sleep_gangs (c : Cond) : (s.sleep c).gangs = s.gangs := rfl
@[simp] theorem State.sleep_journal (c : Cond) : (s.sleep c).journal = s.journal := rfl
@[simp] theorem State.sleep_lost (c : Cond) : (s.sleep c).lost = s.lost := rfl
@[simp] theorem State.sleep_tlb (c : Cond) : (s.sleep c).tlb = s.tlb := rfl
@[simp] theorem State.sleep_niKeep (c : Cond) : (s.sleep c).niKeep = s.niKeep := rfl
@[simp] theorem State.sleep_copies (c : Cond) : (s.sleep c).copies = s.copies := rfl
@[simp] theorem State.sleep_jobs (c : Cond) : (s.sleep c).jobs = s.jobs := rfl
@[simp] theorem State.sleep_engines (c : Cond) : (s.sleep c).engines = s.engines := rfl
@[simp] theorem State.sleep_masks (c : Cond) : (s.sleep c).masks = s.masks := rfl
@[simp] theorem State.sleep_msgs (c : Cond) : (s.sleep c).msgs = s.msgs := rfl
@[simp] theorem State.sleep_flits (c : Cond) : (s.sleep c).flits = s.flits := rfl
@[simp] theorem State.sleep_host (c : Cond) : (s.sleep c).host = s.host := rfl
@[simp] theorem State.sleep_mc (c : Cond) : (s.sleep c).mc = s.mc := rfl
@[simp] theorem State.sleep_time (c : Cond) : (s.sleep c).time = s.time := rfl
@[simp] theorem State.sleep_cur (c : Cond) : (s.sleep c).cur = s.cur := rfl
@[simp] theorem State.sleep_ir (c : Cond) : (s.sleep c).ir = s.ir := rfl
@[simp] theorem State.sleep_fresh (c : Cond) : (s.sleep c).fresh = s.fresh := rfl
@[simp] theorem State.sleep_inputs (c : Cond) : (s.sleep c).inputs = s.inputs := rfl

@[simp] theorem State.countAccess_mem : (s.countAccess).mem = s.mem := rfl
@[simp] theorem State.countAccess_poison : (s.countAccess).poison = s.poison := rfl
@[simp] theorem State.countAccess_cores : (s.countAccess).cores = s.cores := rfl
@[simp] theorem State.countAccess_parts : (s.countAccess).parts = s.parts := rfl
@[simp] theorem State.countAccess_gangs : (s.countAccess).gangs = s.gangs := rfl
@[simp] theorem State.countAccess_journal : (s.countAccess).journal = s.journal := rfl
@[simp] theorem State.countAccess_lost : (s.countAccess).lost = s.lost := rfl
@[simp] theorem State.countAccess_tlb : (s.countAccess).tlb = s.tlb := rfl
@[simp] theorem State.countAccess_niKeep : (s.countAccess).niKeep = s.niKeep := rfl
@[simp] theorem State.countAccess_copies : (s.countAccess).copies = s.copies := rfl
@[simp] theorem State.countAccess_jobs : (s.countAccess).jobs = s.jobs := rfl
@[simp] theorem State.countAccess_engines : (s.countAccess).engines = s.engines := rfl
@[simp] theorem State.countAccess_masks : (s.countAccess).masks = s.masks := rfl
@[simp] theorem State.countAccess_msgs : (s.countAccess).msgs = s.msgs := rfl
@[simp] theorem State.countAccess_flits : (s.countAccess).flits = s.flits := rfl
@[simp] theorem State.countAccess_host : (s.countAccess).host = s.host := rfl
@[simp] theorem State.countAccess_mc : (s.countAccess).mc = s.mc := rfl
@[simp] theorem State.countAccess_time : (s.countAccess).time = s.time := rfl
@[simp] theorem State.countAccess_cur : (s.countAccess).cur = s.cur := rfl
@[simp] theorem State.countAccess_ir : (s.countAccess).ir = s.ir := rfl
@[simp] theorem State.countAccess_flow : (s.countAccess).flow = s.flow := rfl
@[simp] theorem State.countAccess_fresh : (s.countAccess).fresh = s.fresh := rfl
@[simp] theorem State.countAccess_inputs : (s.countAccess).inputs = s.inputs := rfl

@[simp] theorem State.modPart_mem (n : Nat) (f : Part → Part) : (s.modPart n f).mem = s.mem := by unfold State.modPart; split <;> rfl
@[simp] theorem State.modPart_poison (n : Nat) (f : Part → Part) : (s.modPart n f).poison = s.poison := by unfold State.modPart; split <;> rfl
@[simp] theorem State.modPart_slots (n : Nat) (f : Part → Part) : (s.modPart n f).slots = s.slots := by unfold State.modPart; split <;> rfl
@[simp] theorem State.modPart_cores (n : Nat) (f : Part → Part) : (s.modPart n f).cores = s.cores := by unfold State.modPart; split <;> rfl
@[simp] theorem State.modPart_gangs (n : Nat) (f : Part → Part) : (s.modPart n f).gangs = s.gangs := by unfold State.modPart; split <;> rfl
@[simp] theorem State.modPart_journal (n : Nat) (f : Part → Part) : (s.modPart n f).journal = s.journal := by unfold State.modPart; split <;> rfl
@[simp] theorem State.modPart_lost (n : Nat) (f : Part → Part) : (s.modPart n f).lost = s.lost := by unfold State.modPart; split <;> rfl
@[simp] theorem State.modPart_tlb (n : Nat) (f : Part → Part) : (s.modPart n f).tlb = s.tlb := by unfold State.modPart; split <;> rfl
@[simp] theorem State.modPart_niKeep (n : Nat) (f : Part → Part) : (s.modPart n f).niKeep = s.niKeep := by unfold State.modPart; split <;> rfl
@[simp] theorem State.modPart_copies (n : Nat) (f : Part → Part) : (s.modPart n f).copies = s.copies := by unfold State.modPart; split <;> rfl
@[simp] theorem State.modPart_jobs (n : Nat) (f : Part → Part) : (s.modPart n f).jobs = s.jobs := by unfold State.modPart; split <;> rfl
@[simp] theorem State.modPart_engines (n : Nat) (f : Part → Part) : (s.modPart n f).engines = s.engines := by unfold State.modPart; split <;> rfl
@[simp] theorem State.modPart_masks (n : Nat) (f : Part → Part) : (s.modPart n f).masks = s.masks := by unfold State.modPart; split <;> rfl
@[simp] theorem State.modPart_msgs (n : Nat) (f : Part → Part) : (s.modPart n f).msgs = s.msgs := by unfold State.modPart; split <;> rfl
@[simp] theorem State.modPart_flits (n : Nat) (f : Part → Part) : (s.modPart n f).flits = s.flits := by unfold State.modPart; split <;> rfl
@[simp] theorem State.modPart_host (n : Nat) (f : Part → Part) : (s.modPart n f).host = s.host := by unfold State.modPart; split <;> rfl
@[simp] theorem State.modPart_mc (n : Nat) (f : Part → Part) : (s.modPart n f).mc = s.mc := by unfold State.modPart; split <;> rfl
@[simp] theorem State.modPart_time (n : Nat) (f : Part → Part) : (s.modPart n f).time = s.time := by unfold State.modPart; split <;> rfl
@[simp] theorem State.modPart_cur (n : Nat) (f : Part → Part) : (s.modPart n f).cur = s.cur := by unfold State.modPart; split <;> rfl
@[simp] theorem State.modPart_ir (n : Nat) (f : Part → Part) : (s.modPart n f).ir = s.ir := by unfold State.modPart; split <;> rfl
@[simp] theorem State.modPart_flow (n : Nat) (f : Part → Part) : (s.modPart n f).flow = s.flow := by unfold State.modPart; split <;> rfl
@[simp] theorem State.modPart_fresh (n : Nat) (f : Part → Part) : (s.modPart n f).fresh = s.fresh := by unfold State.modPart; split <;> rfl
@[simp] theorem State.modPart_inputs (n : Nat) (f : Part → Part) : (s.modPart n f).inputs = s.inputs := by unfold State.modPart; split <;> rfl

@[simp] theorem State.setFlags_mem (lat : Nat) (f : BitVec 7) : (s.setFlags lat f).mem = s.mem := by unfold State.setFlags; split <;> rfl
@[simp] theorem State.setFlags_poison (lat : Nat) (f : BitVec 7) : (s.setFlags lat f).poison = s.poison := by unfold State.setFlags; split <;> rfl
@[simp] theorem State.setFlags_cores (lat : Nat) (f : BitVec 7) : (s.setFlags lat f).cores = s.cores := by unfold State.setFlags; split <;> rfl
@[simp] theorem State.setFlags_parts (lat : Nat) (f : BitVec 7) : (s.setFlags lat f).parts = s.parts := by unfold State.setFlags; split <;> rfl
@[simp] theorem State.setFlags_gangs (lat : Nat) (f : BitVec 7) : (s.setFlags lat f).gangs = s.gangs := by unfold State.setFlags; split <;> rfl
@[simp] theorem State.setFlags_journal (lat : Nat) (f : BitVec 7) : (s.setFlags lat f).journal = s.journal := by unfold State.setFlags; split <;> rfl
@[simp] theorem State.setFlags_lost (lat : Nat) (f : BitVec 7) : (s.setFlags lat f).lost = s.lost := by unfold State.setFlags; split <;> rfl
@[simp] theorem State.setFlags_tlb (lat : Nat) (f : BitVec 7) : (s.setFlags lat f).tlb = s.tlb := by unfold State.setFlags; split <;> rfl
@[simp] theorem State.setFlags_niKeep (lat : Nat) (f : BitVec 7) : (s.setFlags lat f).niKeep = s.niKeep := by unfold State.setFlags; split <;> rfl
@[simp] theorem State.setFlags_copies (lat : Nat) (f : BitVec 7) : (s.setFlags lat f).copies = s.copies := by unfold State.setFlags; split <;> rfl
@[simp] theorem State.setFlags_jobs (lat : Nat) (f : BitVec 7) : (s.setFlags lat f).jobs = s.jobs := by unfold State.setFlags; split <;> rfl
@[simp] theorem State.setFlags_engines (lat : Nat) (f : BitVec 7) : (s.setFlags lat f).engines = s.engines := by unfold State.setFlags; split <;> rfl
@[simp] theorem State.setFlags_masks (lat : Nat) (f : BitVec 7) : (s.setFlags lat f).masks = s.masks := by unfold State.setFlags; split <;> rfl
@[simp] theorem State.setFlags_msgs (lat : Nat) (f : BitVec 7) : (s.setFlags lat f).msgs = s.msgs := by unfold State.setFlags; split <;> rfl
@[simp] theorem State.setFlags_flits (lat : Nat) (f : BitVec 7) : (s.setFlags lat f).flits = s.flits := by unfold State.setFlags; split <;> rfl
@[simp] theorem State.setFlags_host (lat : Nat) (f : BitVec 7) : (s.setFlags lat f).host = s.host := by unfold State.setFlags; split <;> rfl
@[simp] theorem State.setFlags_mc (lat : Nat) (f : BitVec 7) : (s.setFlags lat f).mc = s.mc := by unfold State.setFlags; split <;> rfl
@[simp] theorem State.setFlags_time (lat : Nat) (f : BitVec 7) : (s.setFlags lat f).time = s.time := by unfold State.setFlags; split <;> rfl
@[simp] theorem State.setFlags_cur (lat : Nat) (f : BitVec 7) : (s.setFlags lat f).cur = s.cur := by unfold State.setFlags; split <;> rfl
@[simp] theorem State.setFlags_ir (lat : Nat) (f : BitVec 7) : (s.setFlags lat f).ir = s.ir := by unfold State.setFlags; split <;> rfl
@[simp] theorem State.setFlags_flow (lat : Nat) (f : BitVec 7) : (s.setFlags lat f).flow = s.flow := by unfold State.setFlags; split <;> rfl
@[simp] theorem State.setFlags_fresh (lat : Nat) (f : BitVec 7) : (s.setFlags lat f).fresh = s.fresh := by unfold State.setFlags; split <;> rfl
@[simp] theorem State.setFlags_inputs (lat : Nat) (f : BitVec 7) : (s.setFlags lat f).inputs = s.inputs := by unfold State.setFlags; split <;> rfl

@[simp] theorem State.wait_mem (x : HostAccess) : (s.wait x).mem = s.mem := rfl
@[simp] theorem State.wait_poison (x : HostAccess) : (s.wait x).poison = s.poison := rfl
@[simp] theorem State.wait_slots (x : HostAccess) : (s.wait x).slots = s.slots := rfl
@[simp] theorem State.wait_cores (x : HostAccess) : (s.wait x).cores = s.cores := rfl
@[simp] theorem State.wait_parts (x : HostAccess) : (s.wait x).parts = s.parts := rfl
@[simp] theorem State.wait_gangs (x : HostAccess) : (s.wait x).gangs = s.gangs := rfl
@[simp] theorem State.wait_journal (x : HostAccess) : (s.wait x).journal = s.journal := rfl
@[simp] theorem State.wait_lost (x : HostAccess) : (s.wait x).lost = s.lost := rfl
@[simp] theorem State.wait_tlb (x : HostAccess) : (s.wait x).tlb = s.tlb := rfl
@[simp] theorem State.wait_niKeep (x : HostAccess) : (s.wait x).niKeep = s.niKeep := rfl
@[simp] theorem State.wait_copies (x : HostAccess) : (s.wait x).copies = s.copies := rfl
@[simp] theorem State.wait_jobs (x : HostAccess) : (s.wait x).jobs = s.jobs := rfl
@[simp] theorem State.wait_engines (x : HostAccess) : (s.wait x).engines = s.engines := rfl
@[simp] theorem State.wait_masks (x : HostAccess) : (s.wait x).masks = s.masks := rfl
@[simp] theorem State.wait_msgs (x : HostAccess) : (s.wait x).msgs = s.msgs := rfl
@[simp] theorem State.wait_flits (x : HostAccess) : (s.wait x).flits = s.flits := rfl
@[simp] theorem State.wait_mc (x : HostAccess) : (s.wait x).mc = s.mc := rfl
@[simp] theorem State.wait_time (x : HostAccess) : (s.wait x).time = s.time := rfl
@[simp] theorem State.wait_cur (x : HostAccess) : (s.wait x).cur = s.cur := rfl
@[simp] theorem State.wait_ir (x : HostAccess) : (s.wait x).ir = s.ir := rfl
@[simp] theorem State.wait_flow (x : HostAccess) : (s.wait x).flow = s.flow := rfl
@[simp] theorem State.wait_fresh (x : HostAccess) : (s.wait x).fresh = s.fresh := rfl
@[simp] theorem State.wait_inputs (x : HostAccess) : (s.wait x).inputs = s.inputs := rfl

@[simp] theorem State.unwait_mem (x : HostAccess) : (s.unwait x).mem = s.mem := rfl
@[simp] theorem State.unwait_poison (x : HostAccess) : (s.unwait x).poison = s.poison := rfl
@[simp] theorem State.unwait_slots (x : HostAccess) : (s.unwait x).slots = s.slots := rfl
@[simp] theorem State.unwait_cores (x : HostAccess) : (s.unwait x).cores = s.cores := rfl
@[simp] theorem State.unwait_parts (x : HostAccess) : (s.unwait x).parts = s.parts := rfl
@[simp] theorem State.unwait_gangs (x : HostAccess) : (s.unwait x).gangs = s.gangs := rfl
@[simp] theorem State.unwait_journal (x : HostAccess) : (s.unwait x).journal = s.journal := rfl
@[simp] theorem State.unwait_lost (x : HostAccess) : (s.unwait x).lost = s.lost := rfl
@[simp] theorem State.unwait_tlb (x : HostAccess) : (s.unwait x).tlb = s.tlb := rfl
@[simp] theorem State.unwait_niKeep (x : HostAccess) : (s.unwait x).niKeep = s.niKeep := rfl
@[simp] theorem State.unwait_copies (x : HostAccess) : (s.unwait x).copies = s.copies := rfl
@[simp] theorem State.unwait_jobs (x : HostAccess) : (s.unwait x).jobs = s.jobs := rfl
@[simp] theorem State.unwait_engines (x : HostAccess) : (s.unwait x).engines = s.engines := rfl
@[simp] theorem State.unwait_masks (x : HostAccess) : (s.unwait x).masks = s.masks := rfl
@[simp] theorem State.unwait_msgs (x : HostAccess) : (s.unwait x).msgs = s.msgs := rfl
@[simp] theorem State.unwait_flits (x : HostAccess) : (s.unwait x).flits = s.flits := rfl
@[simp] theorem State.unwait_mc (x : HostAccess) : (s.unwait x).mc = s.mc := rfl
@[simp] theorem State.unwait_time (x : HostAccess) : (s.unwait x).time = s.time := rfl
@[simp] theorem State.unwait_cur (x : HostAccess) : (s.unwait x).cur = s.cur := rfl
@[simp] theorem State.unwait_ir (x : HostAccess) : (s.unwait x).ir = s.ir := rfl
@[simp] theorem State.unwait_flow (x : HostAccess) : (s.unwait x).flow = s.flow := rfl
@[simp] theorem State.unwait_fresh (x : HostAccess) : (s.unwait x).fresh = s.fresh := rfl
@[simp] theorem State.unwait_inputs (x : HostAccess) : (s.unwait x).inputs = s.inputs := rfl

@[simp] theorem State.enqueue_mem (k : Nat) (va : Word) : (s.enqueue k va).mem = s.mem := by unfold State.enqueue; split <;> rfl
@[simp] theorem State.enqueue_poison (k : Nat) (va : Word) : (s.enqueue k va).poison = s.poison := by unfold State.enqueue; split <;> rfl
@[simp] theorem State.enqueue_slots (k : Nat) (va : Word) : (s.enqueue k va).slots = s.slots := by unfold State.enqueue; split <;> rfl
@[simp] theorem State.enqueue_cores (k : Nat) (va : Word) : (s.enqueue k va).cores = s.cores := by unfold State.enqueue; split <;> rfl
@[simp] theorem State.enqueue_parts (k : Nat) (va : Word) : (s.enqueue k va).parts = s.parts := by unfold State.enqueue; split <;> rfl
@[simp] theorem State.enqueue_gangs (k : Nat) (va : Word) : (s.enqueue k va).gangs = s.gangs := by unfold State.enqueue; split <;> rfl
@[simp] theorem State.enqueue_journal (k : Nat) (va : Word) : (s.enqueue k va).journal = s.journal := by unfold State.enqueue; split <;> rfl
@[simp] theorem State.enqueue_lost (k : Nat) (va : Word) : (s.enqueue k va).lost = s.lost := by unfold State.enqueue; split <;> rfl
@[simp] theorem State.enqueue_tlb (k : Nat) (va : Word) : (s.enqueue k va).tlb = s.tlb := by unfold State.enqueue; split <;> rfl
@[simp] theorem State.enqueue_niKeep (k : Nat) (va : Word) : (s.enqueue k va).niKeep = s.niKeep := by unfold State.enqueue; split <;> rfl
@[simp] theorem State.enqueue_copies (k : Nat) (va : Word) : (s.enqueue k va).copies = s.copies := by unfold State.enqueue; split <;> rfl
@[simp] theorem State.enqueue_jobs (k : Nat) (va : Word) : (s.enqueue k va).jobs = s.jobs := by unfold State.enqueue; split <;> rfl
@[simp] theorem State.enqueue_engines (k : Nat) (va : Word) : (s.enqueue k va).engines = s.engines := by unfold State.enqueue; split <;> rfl
@[simp] theorem State.enqueue_masks (k : Nat) (va : Word) : (s.enqueue k va).masks = s.masks := by unfold State.enqueue; split <;> rfl
@[simp] theorem State.enqueue_msgs (k : Nat) (va : Word) : (s.enqueue k va).msgs = s.msgs := by unfold State.enqueue; split <;> rfl
@[simp] theorem State.enqueue_flits (k : Nat) (va : Word) : (s.enqueue k va).flits = s.flits := by unfold State.enqueue; split <;> rfl
@[simp] theorem State.enqueue_mc (k : Nat) (va : Word) : (s.enqueue k va).mc = s.mc := by unfold State.enqueue; split <;> rfl
@[simp] theorem State.enqueue_time (k : Nat) (va : Word) : (s.enqueue k va).time = s.time := by unfold State.enqueue; split <;> rfl
@[simp] theorem State.enqueue_cur (k : Nat) (va : Word) : (s.enqueue k va).cur = s.cur := by unfold State.enqueue; split <;> rfl
@[simp] theorem State.enqueue_ir (k : Nat) (va : Word) : (s.enqueue k va).ir = s.ir := by unfold State.enqueue; split <;> rfl
@[simp] theorem State.enqueue_flow (k : Nat) (va : Word) : (s.enqueue k va).flow = s.flow := by unfold State.enqueue; split <;> rfl
@[simp] theorem State.enqueue_fresh (k : Nat) (va : Word) : (s.enqueue k va).fresh = s.fresh := by unfold State.enqueue; split <;> rfl
@[simp] theorem State.enqueue_inputs (k : Nat) (va : Word) : (s.enqueue k va).inputs = s.inputs := by unfold State.enqueue; split <;> rfl

@[simp] theorem State.unqueue_mem (k : Nat) : (s.unqueue k).mem = s.mem := by unfold State.unqueue; split <;> rfl
@[simp] theorem State.unqueue_poison (k : Nat) : (s.unqueue k).poison = s.poison := by unfold State.unqueue; split <;> rfl
@[simp] theorem State.unqueue_slots (k : Nat) : (s.unqueue k).slots = s.slots := by unfold State.unqueue; split <;> rfl
@[simp] theorem State.unqueue_cores (k : Nat) : (s.unqueue k).cores = s.cores := by unfold State.unqueue; split <;> rfl
@[simp] theorem State.unqueue_parts (k : Nat) : (s.unqueue k).parts = s.parts := by unfold State.unqueue; split <;> rfl
@[simp] theorem State.unqueue_gangs (k : Nat) : (s.unqueue k).gangs = s.gangs := by unfold State.unqueue; split <;> rfl
@[simp] theorem State.unqueue_journal (k : Nat) : (s.unqueue k).journal = s.journal := by unfold State.unqueue; split <;> rfl
@[simp] theorem State.unqueue_lost (k : Nat) : (s.unqueue k).lost = s.lost := by unfold State.unqueue; split <;> rfl
@[simp] theorem State.unqueue_tlb (k : Nat) : (s.unqueue k).tlb = s.tlb := by unfold State.unqueue; split <;> rfl
@[simp] theorem State.unqueue_niKeep (k : Nat) : (s.unqueue k).niKeep = s.niKeep := by unfold State.unqueue; split <;> rfl
@[simp] theorem State.unqueue_copies (k : Nat) : (s.unqueue k).copies = s.copies := by unfold State.unqueue; split <;> rfl
@[simp] theorem State.unqueue_jobs (k : Nat) : (s.unqueue k).jobs = s.jobs := by unfold State.unqueue; split <;> rfl
@[simp] theorem State.unqueue_engines (k : Nat) : (s.unqueue k).engines = s.engines := by unfold State.unqueue; split <;> rfl
@[simp] theorem State.unqueue_masks (k : Nat) : (s.unqueue k).masks = s.masks := by unfold State.unqueue; split <;> rfl
@[simp] theorem State.unqueue_msgs (k : Nat) : (s.unqueue k).msgs = s.msgs := by unfold State.unqueue; split <;> rfl
@[simp] theorem State.unqueue_flits (k : Nat) : (s.unqueue k).flits = s.flits := by unfold State.unqueue; split <;> rfl
@[simp] theorem State.unqueue_mc (k : Nat) : (s.unqueue k).mc = s.mc := by unfold State.unqueue; split <;> rfl
@[simp] theorem State.unqueue_time (k : Nat) : (s.unqueue k).time = s.time := by unfold State.unqueue; split <;> rfl
@[simp] theorem State.unqueue_cur (k : Nat) : (s.unqueue k).cur = s.cur := by unfold State.unqueue; split <;> rfl
@[simp] theorem State.unqueue_ir (k : Nat) : (s.unqueue k).ir = s.ir := by unfold State.unqueue; split <;> rfl
@[simp] theorem State.unqueue_flow (k : Nat) : (s.unqueue k).flow = s.flow := by unfold State.unqueue; split <;> rfl
@[simp] theorem State.unqueue_fresh (k : Nat) : (s.unqueue k).fresh = s.fresh := by unfold State.unqueue; split <;> rfl
@[simp] theorem State.unqueue_inputs (k : Nat) : (s.unqueue k).inputs = s.inputs := by unfold State.unqueue; split <;> rfl

@[simp] theorem State.answerAfter_mem : (s.answerAfter).mem = s.mem := rfl
@[simp] theorem State.answerAfter_poison : (s.answerAfter).poison = s.poison := rfl
@[simp] theorem State.answerAfter_slots : (s.answerAfter).slots = s.slots := rfl
@[simp] theorem State.answerAfter_cores : (s.answerAfter).cores = s.cores := rfl
@[simp] theorem State.answerAfter_parts : (s.answerAfter).parts = s.parts := rfl
@[simp] theorem State.answerAfter_gangs : (s.answerAfter).gangs = s.gangs := rfl
@[simp] theorem State.answerAfter_journal : (s.answerAfter).journal = s.journal := rfl
@[simp] theorem State.answerAfter_lost : (s.answerAfter).lost = s.lost := rfl
@[simp] theorem State.answerAfter_tlb : (s.answerAfter).tlb = s.tlb := rfl
@[simp] theorem State.answerAfter_niKeep : (s.answerAfter).niKeep = s.niKeep := rfl
@[simp] theorem State.answerAfter_copies : (s.answerAfter).copies = s.copies := rfl
@[simp] theorem State.answerAfter_jobs : (s.answerAfter).jobs = s.jobs := rfl
@[simp] theorem State.answerAfter_engines : (s.answerAfter).engines = s.engines := rfl
@[simp] theorem State.answerAfter_masks : (s.answerAfter).masks = s.masks := rfl
@[simp] theorem State.answerAfter_msgs : (s.answerAfter).msgs = s.msgs := rfl
@[simp] theorem State.answerAfter_flits : (s.answerAfter).flits = s.flits := rfl
@[simp] theorem State.answerAfter_host : (s.answerAfter).host = s.host := rfl
@[simp] theorem State.answerAfter_mc : (s.answerAfter).mc = s.mc := rfl
@[simp] theorem State.answerAfter_time : (s.answerAfter).time = s.time := rfl
@[simp] theorem State.answerAfter_cur : (s.answerAfter).cur = s.cur := rfl
@[simp] theorem State.answerAfter_ir : (s.answerAfter).ir = s.ir := rfl
@[simp] theorem State.answerAfter_fresh : (s.answerAfter).fresh = s.fresh := rfl
@[simp] theorem State.answerAfter_inputs : (s.answerAfter).inputs = s.inputs := rfl

@[simp] theorem State.answerS_mem (d : SReg) (v : Word) : (s.answerS d v).mem = s.mem := rfl
@[simp] theorem State.answerS_poison (d : SReg) (v : Word) : (s.answerS d v).poison = s.poison := rfl
@[simp] theorem State.answerS_cores (d : SReg) (v : Word) : (s.answerS d v).cores = s.cores := rfl
@[simp] theorem State.answerS_parts (d : SReg) (v : Word) : (s.answerS d v).parts = s.parts := rfl
@[simp] theorem State.answerS_gangs (d : SReg) (v : Word) : (s.answerS d v).gangs = s.gangs := rfl
@[simp] theorem State.answerS_journal (d : SReg) (v : Word) : (s.answerS d v).journal = s.journal := rfl
@[simp] theorem State.answerS_lost (d : SReg) (v : Word) : (s.answerS d v).lost = s.lost := rfl
@[simp] theorem State.answerS_tlb (d : SReg) (v : Word) : (s.answerS d v).tlb = s.tlb := rfl
@[simp] theorem State.answerS_niKeep (d : SReg) (v : Word) : (s.answerS d v).niKeep = s.niKeep := rfl
@[simp] theorem State.answerS_copies (d : SReg) (v : Word) : (s.answerS d v).copies = s.copies := rfl
@[simp] theorem State.answerS_jobs (d : SReg) (v : Word) : (s.answerS d v).jobs = s.jobs := rfl
@[simp] theorem State.answerS_engines (d : SReg) (v : Word) : (s.answerS d v).engines = s.engines := rfl
@[simp] theorem State.answerS_masks (d : SReg) (v : Word) : (s.answerS d v).masks = s.masks := rfl
@[simp] theorem State.answerS_msgs (d : SReg) (v : Word) : (s.answerS d v).msgs = s.msgs := rfl
@[simp] theorem State.answerS_flits (d : SReg) (v : Word) : (s.answerS d v).flits = s.flits := rfl
@[simp] theorem State.answerS_host (d : SReg) (v : Word) : (s.answerS d v).host = s.host := rfl
@[simp] theorem State.answerS_mc (d : SReg) (v : Word) : (s.answerS d v).mc = s.mc := rfl
@[simp] theorem State.answerS_time (d : SReg) (v : Word) : (s.answerS d v).time = s.time := rfl
@[simp] theorem State.answerS_cur (d : SReg) (v : Word) : (s.answerS d v).cur = s.cur := rfl
@[simp] theorem State.answerS_ir (d : SReg) (v : Word) : (s.answerS d v).ir = s.ir := rfl
@[simp] theorem State.answerS_fresh (d : SReg) (v : Word) : (s.answerS d v).fresh = s.fresh := rfl
@[simp] theorem State.answerS_inputs (d : SReg) (v : Word) : (s.answerS d v).inputs = s.inputs := rfl

@[simp] theorem State.setOrAnswerS_mem (w : Bool) (d : SReg) (v : Word) : (s.setOrAnswerS w d v).mem = s.mem := by unfold State.setOrAnswerS; split <;> rfl
@[simp] theorem State.setOrAnswerS_poison (w : Bool) (d : SReg) (v : Word) : (s.setOrAnswerS w d v).poison = s.poison := by unfold State.setOrAnswerS; split <;> rfl
@[simp] theorem State.setOrAnswerS_cores (w : Bool) (d : SReg) (v : Word) : (s.setOrAnswerS w d v).cores = s.cores := by unfold State.setOrAnswerS; split <;> rfl
@[simp] theorem State.setOrAnswerS_parts (w : Bool) (d : SReg) (v : Word) : (s.setOrAnswerS w d v).parts = s.parts := by unfold State.setOrAnswerS; split <;> rfl
@[simp] theorem State.setOrAnswerS_gangs (w : Bool) (d : SReg) (v : Word) : (s.setOrAnswerS w d v).gangs = s.gangs := by unfold State.setOrAnswerS; split <;> rfl
@[simp] theorem State.setOrAnswerS_journal (w : Bool) (d : SReg) (v : Word) : (s.setOrAnswerS w d v).journal = s.journal := by unfold State.setOrAnswerS; split <;> rfl
@[simp] theorem State.setOrAnswerS_lost (w : Bool) (d : SReg) (v : Word) : (s.setOrAnswerS w d v).lost = s.lost := by unfold State.setOrAnswerS; split <;> rfl
@[simp] theorem State.setOrAnswerS_tlb (w : Bool) (d : SReg) (v : Word) : (s.setOrAnswerS w d v).tlb = s.tlb := by unfold State.setOrAnswerS; split <;> rfl
@[simp] theorem State.setOrAnswerS_niKeep (w : Bool) (d : SReg) (v : Word) : (s.setOrAnswerS w d v).niKeep = s.niKeep := by unfold State.setOrAnswerS; split <;> rfl
@[simp] theorem State.setOrAnswerS_copies (w : Bool) (d : SReg) (v : Word) : (s.setOrAnswerS w d v).copies = s.copies := by unfold State.setOrAnswerS; split <;> rfl
@[simp] theorem State.setOrAnswerS_jobs (w : Bool) (d : SReg) (v : Word) : (s.setOrAnswerS w d v).jobs = s.jobs := by unfold State.setOrAnswerS; split <;> rfl
@[simp] theorem State.setOrAnswerS_engines (w : Bool) (d : SReg) (v : Word) : (s.setOrAnswerS w d v).engines = s.engines := by unfold State.setOrAnswerS; split <;> rfl
@[simp] theorem State.setOrAnswerS_masks (w : Bool) (d : SReg) (v : Word) : (s.setOrAnswerS w d v).masks = s.masks := by unfold State.setOrAnswerS; split <;> rfl
@[simp] theorem State.setOrAnswerS_msgs (w : Bool) (d : SReg) (v : Word) : (s.setOrAnswerS w d v).msgs = s.msgs := by unfold State.setOrAnswerS; split <;> rfl
@[simp] theorem State.setOrAnswerS_flits (w : Bool) (d : SReg) (v : Word) : (s.setOrAnswerS w d v).flits = s.flits := by unfold State.setOrAnswerS; split <;> rfl
@[simp] theorem State.setOrAnswerS_host (w : Bool) (d : SReg) (v : Word) : (s.setOrAnswerS w d v).host = s.host := by unfold State.setOrAnswerS; split <;> rfl
@[simp] theorem State.setOrAnswerS_mc (w : Bool) (d : SReg) (v : Word) : (s.setOrAnswerS w d v).mc = s.mc := by unfold State.setOrAnswerS; split <;> rfl
@[simp] theorem State.setOrAnswerS_time (w : Bool) (d : SReg) (v : Word) : (s.setOrAnswerS w d v).time = s.time := by unfold State.setOrAnswerS; split <;> rfl
@[simp] theorem State.setOrAnswerS_cur (w : Bool) (d : SReg) (v : Word) : (s.setOrAnswerS w d v).cur = s.cur := by unfold State.setOrAnswerS; split <;> rfl
@[simp] theorem State.setOrAnswerS_ir (w : Bool) (d : SReg) (v : Word) : (s.setOrAnswerS w d v).ir = s.ir := by unfold State.setOrAnswerS; split <;> rfl
@[simp] theorem State.setOrAnswerS_fresh (w : Bool) (d : SReg) (v : Word) : (s.setOrAnswerS w d v).fresh = s.fresh := by unfold State.setOrAnswerS; split <;> rfl
@[simp] theorem State.setOrAnswerS_inputs (w : Bool) (d : SReg) (v : Word) : (s.setOrAnswerS w d v).inputs = s.inputs := by unfold State.setOrAnswerS; split <;> rfl

@[simp] theorem State.sleepAt_mem (va : Word) : (s.sleepAt va).mem = s.mem := by simp [State.sleepAt]
@[simp] theorem State.sleepAt_poison (va : Word) : (s.sleepAt va).poison = s.poison := by simp [State.sleepAt]
@[simp] theorem State.sleepAt_cores (va : Word) : (s.sleepAt va).cores = s.cores := by simp [State.sleepAt]
@[simp] theorem State.sleepAt_parts (va : Word) : (s.sleepAt va).parts = s.parts := by simp [State.sleepAt]
@[simp] theorem State.sleepAt_gangs (va : Word) : (s.sleepAt va).gangs = s.gangs := by simp [State.sleepAt]
@[simp] theorem State.sleepAt_journal (va : Word) : (s.sleepAt va).journal = s.journal := by simp [State.sleepAt]
@[simp] theorem State.sleepAt_lost (va : Word) : (s.sleepAt va).lost = s.lost := by simp [State.sleepAt]
@[simp] theorem State.sleepAt_tlb (va : Word) : (s.sleepAt va).tlb = s.tlb := by simp [State.sleepAt]
@[simp] theorem State.sleepAt_niKeep (va : Word) : (s.sleepAt va).niKeep = s.niKeep := by simp [State.sleepAt]
@[simp] theorem State.sleepAt_copies (va : Word) : (s.sleepAt va).copies = s.copies := by simp [State.sleepAt]
@[simp] theorem State.sleepAt_jobs (va : Word) : (s.sleepAt va).jobs = s.jobs := by simp [State.sleepAt]
@[simp] theorem State.sleepAt_engines (va : Word) : (s.sleepAt va).engines = s.engines := by simp [State.sleepAt]
@[simp] theorem State.sleepAt_masks (va : Word) : (s.sleepAt va).masks = s.masks := by simp [State.sleepAt]
@[simp] theorem State.sleepAt_msgs (va : Word) : (s.sleepAt va).msgs = s.msgs := by simp [State.sleepAt]
@[simp] theorem State.sleepAt_flits (va : Word) : (s.sleepAt va).flits = s.flits := by simp [State.sleepAt]
@[simp] theorem State.sleepAt_mc (va : Word) : (s.sleepAt va).mc = s.mc := by simp [State.sleepAt]
@[simp] theorem State.sleepAt_time (va : Word) : (s.sleepAt va).time = s.time := by simp [State.sleepAt]
@[simp] theorem State.sleepAt_cur (va : Word) : (s.sleepAt va).cur = s.cur := by simp [State.sleepAt]
@[simp] theorem State.sleepAt_ir (va : Word) : (s.sleepAt va).ir = s.ir := by simp [State.sleepAt]
@[simp] theorem State.sleepAt_fresh (va : Word) : (s.sleepAt va).fresh = s.fresh := by simp [State.sleepAt]
@[simp] theorem State.sleepAt_inputs (va : Word) : (s.sleepAt va).inputs = s.inputs := by simp [State.sleepAt]

@[simp] theorem State.answerAfter_flow : s.answerAfter.flow = .answered := rfl
@[simp] theorem State.answerS_flow (d : SReg) (v : Word) : (s.answerS d v).flow = .answered := rfl
@[simp] theorem State.sleepAt_flow (va : Word) : (s.sleepAt va).flow = .slept := by rw [State.sleepAt, State.enqueue_flow]; rfl
@[simp] theorem State.wait_waiting (x : HostAccess) : (s.wait x).host.waiting = s.host.waiting ++ [x] := rfl
@[simp] theorem State.unwait_waiting (x : HostAccess) : (s.unwait x).host.waiting = s.host.waiting.erase x := rfl

@[simp] theorem State.branch_flow (a : Word) : (s.branch a).flow = .taken a true := rfl
@[simp] theorem State.switchAfter_flow : s.switchAfter.flow = .switched := rfl
@[simp] theorem State.hold_flow (c : Cond) : (s.hold c).flow = .held := rfl
@[simp] theorem State.sleep_flow (c : Cond) : (s.sleep c).flow = .slept := rfl

@[simp] theorem State.slot_setSlot (k : Nat) (x : Slot) : (s.setSlot k x).slot k = x := lookup_insert_same _ _ _ _

theorem State.slot_setSlot_ne {k j : Nat} (x : Slot) (h : j ≠ k) : (s.setSlot k x).slot j = s.slot j :=
  lookup_insert_ne _ _ _ h

@[simp] theorem State.slot_modSlot (k : Nat) (f : Slot → Slot) : (s.modSlot k f).slot k = f (s.slot k) :=
  lookup_insert_same _ _ _ _

theorem State.slot_modSlot_ne {k j : Nat} (f : Slot → Slot) (h : j ≠ k) : (s.modSlot k f).slot j = s.slot j :=
  lookup_insert_ne _ _ _ h

@[simp] theorem State.me_modMe (f : Slot → Slot) : (s.modMe f).me = f s.me := lookup_insert_same _ _ _ _

@[simp] theorem State.setSlot_setSlot (k : Nat) (x y : Slot) : (s.setSlot k x).setSlot k y = s.setSlot k y := by
  simp [State.setSlot]

@[simp] theorem State.modSlot_modSlot (k : Nat) (f g : Slot → Slot) :
    (s.modSlot k f).modSlot k g = s.modSlot k fun t => g (f t) := by
  simp [State.modSlot]

@[simp] theorem State.modMe_modMe (f g : Slot → Slot) : (s.modMe f).modMe g = s.modMe fun t => g (f t) := by
  simp [State.modMe]

@[simp] theorem State.core_setCore (k : Nat) (x : Core) : (s.setCore k x).core k = x := lookup_insert_same _ _ _ _

theorem State.core_setCore_ne {k j : Nat} (x : Core) (h : j ≠ k) : (s.setCore k x).core j = s.core j :=
  lookup_insert_ne _ _ _ h

@[simp] theorem State.core_modCore (k : Nat) (f : Core → Core) : (s.modCore k f).core k = f (s.core k) :=
  lookup_insert_same _ _ _ _

theorem State.core_modCore_ne {k j : Nat} (f : Core → Core) (h : j ≠ k) : (s.modCore k f).core j = s.core j :=
  lookup_insert_ne _ _ _ h

@[simp] theorem State.core_setSlot (k j : Nat) (x : Slot) : (s.setSlot k x).core j = s.core j := rfl
@[simp] theorem State.core_modSlot (k j : Nat) (f : Slot → Slot) : (s.modSlot k f).core j = s.core j := rfl
@[simp] theorem State.slot_setCore (k j : Nat) (x : Core) : (s.setCore k x).slot j = s.slot j := rfl
@[simp] theorem State.slot_modCore (k j : Nat) (f : Core → Core) : (s.modCore k f).slot j = s.slot j := rfl
@[simp] theorem State.part?_setSlot (k j : Nat) (x : Slot) : (s.setSlot k x).part? j = s.part? j := rfl
@[simp] theorem State.part?_modSlot (k j : Nat) (f : Slot → Slot) : (s.modSlot k f).part? j = s.part? j := rfl

end Sys2Proof.Machine
end

