-- ==== Sys2Proof/Laws/Ops.lean ====
section
/-! SUPPORT. What the shared operations of Ops.lean and Operands.lean answer, each said once in the terms of Safety.lean,
and that an event the device owes is the event of the same name. -/

namespace Sys2Proof.Machine

variable (s : State)

/-! ## Results in flight -/

/-- Changing the issuing slot is writing it whole. -/
theorem State.modMe_eq (f : Slot → Slot) : s.modMe f = s.setSlot s.cur (f s.me) := rfl

@[simp] theorem State.inFlight_cur (rs : List InFlight) : (s.inFlight rs).cur = s.cur := rfl
@[simp] theorem State.inFlight_mem (rs : List InFlight) : (s.inFlight rs).mem = s.mem := rfl
@[simp] theorem State.inFlight_cores (rs : List InFlight) : (s.inFlight rs).cores = s.cores := rfl
@[simp] theorem State.inFlight_parts (rs : List InFlight) : (s.inFlight rs).parts = s.parts := rfl
@[simp] theorem State.inFlight_flow (rs : List InFlight) : (s.inFlight rs).flow = s.flow := rfl

/-- The issuing slot gains the results and keeps the rest. -/
@[simp] theorem State.inFlight_me (rs : List InFlight) :
    (s.inFlight rs).me = { s.me with flight := s.me.flight ++ rs } :=
  lookup_insert_same _ _ _ _

/-- Every other slot is as it was. -/
theorem State.inFlight_slot_ne (rs : List InFlight) {k : Nat} (h : k ≠ s.cur) : (s.inFlight rs).slot k = s.slot k :=
  lookup_insert_ne _ _ _ h

/-- Registers change only when results land. -/
@[simp] theorem State.inFlight_rs (rs : List InFlight) (r : SReg) : (s.inFlight rs).rs r = s.rs r := by
  simp [State.rs]
@[simp] theorem State.inFlight_rv (rs : List InFlight) (r : VReg) : (s.inFlight rs).rv r = s.rv r := by
  simp [State.rv]
@[simp] theorem State.inFlight_rp (rs : List InFlight) (r : PReg) : (s.inFlight rs).rp r = s.rp r := by
  simp [State.rp]

/-- Two batches of results are one batch, the first in front. -/
@[simp] theorem State.inFlight_inFlight (a b : List InFlight) : (s.inFlight a).inFlight b = s.inFlight (a ++ b) := by
  rw [State.inFlight, State.inFlight_cur, State.inFlight_me]
  simp [State.inFlight, List.append_assoc]

/-- A result of any kind is one result in flight. -/
theorem State.result_eq (lat : Nat) (w : Landing) : s.result lat w = s.inFlight [{ left := lat, what := w }] := rfl
theorem State.setS_eq (lat : Nat) (r : SReg) (v : Word) : s.setS lat r v = s.inFlight (sres lat r v) := rfl
theorem State.setV_eq (lat : Nat) (r : VReg) (v : Vec) : s.setV lat r v = s.inFlight (vres lat r v) := rfl
theorem State.setP_eq (lat : Nat) (r : PReg) (v : Bool) : s.setP lat r v = s.inFlight (pres lat r v) := rfl

/-- Flags are one result in flight where there are any; else nothing changes. -/
theorem State.setFlags_eq (lat : Nat) (f : BitVec 7) :
    s.setFlags lat f = if f = 0 then s else s.inFlight (fres lat f) := by
  unfold State.setFlags fres
  split <;> rfl

/-- What an answer brings is in flight for two cycles, at a switch point. -/
theorem State.answerS_eq (d : SReg) (v : Word) : s.answerS d v = { s.inFlight (sres 2 d v) with flow := .answered } := rfl

/-- A result that an answer may bring comes at once or with it. -/
@[simp] theorem State.setOrAnswerS_false (d : SReg) (v : Word) : s.setOrAnswerS false d v = s.inFlight (sres 1 d v) := rfl
@[simp] theorem State.setOrAnswerS_true (d : SReg) (v : Word) :
    s.setOrAnswerS true d v = { s.inFlight (sres 2 d v) with flow := .answered } := rfl

/-- A slot that sleeps behind a page is asleep on it, and joins those that wait at the page's channel, if any do. -/
@[simp] theorem State.sleepAt_me (va : Word) :
    (s.sleepAt va).me = { s.me with status := .asleep, cond := .migration va } := by
  rw [State.sleepAt, State.enqueue]
  split <;> exact lookup_insert_same _ _ _ _

/-! ## The shapes of Operands.lean -/

theorem State.op2_eq (f : Word → Word → Word) (d a b : SReg) :
    s.op2 f d a b = .next (s.inFlight (sres 1 d (f (s.rs a) (s.rs b)))) := rfl
theorem State.op1_eq (f : Word → Word) (d a : SReg) : s.op1 f d a = .next (s.inFlight (sres 1 d (f (s.rs a)))) := rfl
theorem State.cmp2_eq (f : Word → Word → Bool) (d : PReg) (a b : SReg) :
    s.cmp2 f d a b = .next (s.inFlight (pres 1 d (f (s.rs a) (s.rs b)))) := rfl
theorem State.pred2_eq (f : Bool → Bool → Bool) (d a b : PReg) :
    s.pred2 f d a b = .next (s.inFlight (pres 1 d (f (s.rp a) (s.rp b)))) := rfl

/-! ## Traps and checks -/

/-- A precise trap answers a next state: the trap taken at the bundle. -/
theorem State.raise_eq (code detail : Nat) (addr : Word) :
    s.raise code detail addr = .next { s.takeTrap s.cur s.me.pc code detail addr none with flow := .trapped } := rfl

@[simp] theorem State.orTrap_ok {α : Type} (x : α) (f : α → Result) : s.orTrap (.ok x) f = f x := rfl
@[simp] theorem State.orTrap_error {α : Type} (e : Nat × Nat × Word) (f : α → Result) :
    s.orTrap (.error e) f = s.raise e.1 e.2.1 e.2.2 := rfl

/-- A checked operation that answers t has passed its check and answers t, or has trapped with what the check names. -/
theorem State.orTrap_cases {α : Type} {c : Check α} {f : α → Result} {t : State} (h : s.orTrap c f = .next t) :
    (∃ x, c = .ok x ∧ f x = .next t) ∨
    (∃ code detail addr, c = .error (code, detail, addr) ∧
      t = { s.takeTrap s.cur s.me.pc code detail addr none with flow := .trapped }) := by
  cases c with
  | ok x => exact .inl ⟨x, rfl, h⟩
  | error e => exact .inr ⟨e.1, e.2.1, e.2.2, rfl, by simpa [State.raise_eq, eq_comm] using h⟩

/-- A trap in a handler kills the task group (R340). -/
theorem State.takeTrap_sup {k : Nat} {pc addr : Word} {code detail : Nat} {seq : Option Nat}
    (h : (((s.landSwitch k).undoRedo k).slot k).sup = true) :
    s.takeTrap k pc code detail addr seq =
      ((s.landSwitch k).undoRedo k).killGroup (((s.landSwitch k).undoRedo k).slot k).partNo
        (((s.landSwitch k).undoRedo k).slot k).tgid := by
  simp only [State.takeTrap, h, if_true]

/-- What passes the local check lies in the own scratchpad, aligned, inside its window and granted (R254, R272). -/
theorem State.localRange_ok {va : Word} {algn n o : Nat} {bits : List Nat} (h : s.localRange va algn n bits = .ok o) :
    (∃ w, s.myTarget va = some (.spad (coreOf s.cur) w o)) ∧ va.toNat % algn = 0 ∧ o + n ≤ 0x20000 ∧
      s.me.permits bits o n = true := by
  unfold State.localRange at h
  split at h
  · rename_i core w o' hm
    split at h
    · cases h
    · rename_i hc
      split at h
      · cases h
      · rename_i hr
        split at h
        · rename_i hp
          cases h
          obtain rfl := not_not.1 hc
          exact ⟨⟨w, hm⟩, by omega, by omega, hp⟩
        · cases h
  · cases h

/-- Each trap of the local check is ALIGN or PROT at the address. -/
theorem State.localRange_error {va : Word} {algn n : Nat} {bits : List Nat} {e : Nat × Nat × Word}
    (h : s.localRange va algn n bits = .error e) : (e.1 = 3 ∨ e.1 = 4) ∧ e.2 = (0, va) := by
  unfold State.localRange at h
  repeat' split at h
  all_goals cases h <;> simp

/-! ## Events -/

/-- An event the device owes is an event of the table. -/
theorem Due.run_eq (d : Due) : ∃ i : Instr, d.run s = exec i s := by
  cases d with
  | strefused slot => exact ⟨.strefused slot, rfl⟩
  | entryAcceptance slot seq => exact ⟨.entryAcceptance slot seq, rfl⟩
  | crystallisation slot seq => exact ⟨.crystallisation slot seq, rfl⟩
  | flitDeparture core => exact ⟨.flitDeparture core, rfl⟩
  | trecvWindowClose core index => exact ⟨.trecvWindowClose core index, rfl⟩
  | phaseLimit slot => exact ⟨.phaseLimit slot, rfl⟩
  | flitArrival core index => exact ⟨.flitArrival core index, rfl⟩
  | dropNotice core => exact ⟨.dropNotice core, rfl⟩
  | chunkRecord slot id chunk => exact ⟨.chunkRecord slot id chunk, rfl⟩
  | copyCompletion slot id => exact ⟨.copyCompletion slot id, rfl⟩
  | messageDelivery core index lat => exact ⟨.messageDelivery core index lat, rfl⟩
  | undeliverableNotice core index => exact ⟨.undeliverableNotice core index, rfl⟩
  | barrier part bgrp => exact ⟨.barrier part bgrp, rfl⟩
  | coreSettled part bgrp slot => exact ⟨.coreSettled part (bgrp, slot), rfl⟩
  | settleLimit part bgrp => exact ⟨.settleLimit part bgrp, rfl⟩
  | barrierRelease part bgrp slack => exact ⟨.barrierRelease part bgrp slack, rfl⟩
  | launchMessage part => exact ⟨.launchMessage part, rfl⟩
  | taskStart slot => exact ⟨.taskStart slot, rfl⟩
  | jobCompletion lcol => exact ⟨.jobCompletion lcol, rfl⟩
  | jobStart lcol => exact ⟨.jobStart lcol, rfl⟩
  | maskShareCompletion slot id => exact ⟨.maskShareCompletion slot id, rfl⟩
  | mhistCompletion slot id => exact ⟨.mhistCompletion slot id, rfl⟩
  | retirementCleaned part layer rslot => exact ⟨.retirementCleaned part layer rslot, rfl⟩
  | slotWake slot => exact ⟨.slotWake slot, rfl⟩
  | fuseTimeout slot => exact ⟨.fuseTimeout slot, rfl⟩
  | acqfReread slot => exact ⟨.acqfReread slot, rfl⟩
  | watchdogForcedSwitch slot => exact ⟨.watchdogForcedSwitch slot, rfl⟩
  | cxlMemRead port addr len => exact ⟨.cxlMemRead port addr len, rfl⟩
  | deviceAccess kind addr bytes => exact ⟨.deviceAccessArrival kind addr bytes, rfl⟩
  | cxlMemWrite port addr bytes => exact ⟨.cxlMemWrite port addr bytes, rfl⟩
  | claim port => exact ⟨.claim port, rfl⟩
  | release port => exact ⟨.release port, rfl⟩
  | handover port target => exact ⟨.handover port target, rfl⟩
  | accept port => exact ⟨.accept port, rfl⟩
  | pcreate port => exact ⟨.pcreate port, rfl⟩
  | pdestroy port => exact ⟨.pdestroy port, rfl⟩
  | pinfo port => exact ⟨.pinfo port, rfl⟩
  | pswitchCheckpoint port => exact ⟨.pswitchCheckpoint port, rfl⟩
  | pswitchOut port => exact ⟨.pswitchOut port, rfl⟩
  | presume port => exact ⟨.presume port, rfl⟩
  | pslice port => exact ⟨.pslice port, rfl⟩
  | pdevmap port => exact ⟨.pdevmap port, rfl⟩
  | slotreg port => exact ⟨.slotreg port, rfl⟩
  | gkillCommand port => exact ⟨.gkillCommand port, rfl⟩
  | fwstage port verdict version digest => exact ⟨.fwstage port verdict version digest, rfl⟩
  | fwactivate port => exact ⟨.fwactivate port, rfl⟩
  | telem port => exact ⟨.telem port, rfl⟩
  | mstat port => exact ⟨.mstat port, rfl⟩
  | mlog port => exact ⟨.mlog port, rfl⟩
  | hmap port => exact ⟨.hmap port, rfl⟩
  | qrec port => exact ⟨.qrec port, rfl⟩
  | sppr port => exact ⟨.sppr port, rfl⟩
  | hppr port => exact ⟨.hppr port, rfl⟩
  | pwrlim port => exact ⟨.pwrlim port, rfl⟩
  | badcmd port => exact ⟨.badcmd port, rfl⟩
  | switchOut part => exact ⟨.switchOut part, rfl⟩
  | switchIn part => exact ⟨.switchIn part, rfl⟩
  | sliceExpiry part => exact ⟨.sliceExpiry part, rfl⟩
  | replayPeriod core => exact ⟨.replayPeriod core, rfl⟩
  | handoverLapse => exact ⟨.handoverLapse, rfl⟩
  | ownerLinkLoss => exact ⟨.ownerLinkLoss, rfl⟩
  | thermalShutdown => exact ⟨.thermalShutdown, rfl⟩
  | powerClockStep => exact ⟨.powerClockStep, rfl⟩
  | walkRetry slot => exact ⟨.walkRetry slot, rfl⟩
end Sys2Proof.Machine
end

