-- ==== Sys2Proof/Tests/Slice0.lean ====
section
/-! SUPPORT. Tests: terms that the well-formedness check refuses, a word for every syllable, and for every statement
states and operands that meet its hypotheses; single steps with values from the spec. -/

-- One theorem at a time: many kernel evaluations side by side ask for more threads than the check's memory allows.
set_option Elab.async false

namespace Sys2Proof.Tests

open Sys2Proof Sys2Proof.Machine

/-! ## Ill-formed terms -/

/-- R252: quad lanes stand only with class RAW; R245: ACCLD and ACCST have no type 7; R185: a no-op major. -/
theorem test_illformed_syllables :
    [Instr.vlds 1 2 3 true 0, .vsts 1 2 3 true 1, .vgath 1 2 3 true 2, .vscat 1 2 3 true 0, .accld 1 2 7 0, .accst 1 2 7 0,
      .cHint 0x3C 5].all (fun i => !i.wellFormed) = true := by decide

/-- R18: no slot 645,120; R74: no sequence 2^44; R286, R327: no number 0 or 2^32. -/
theorem test_illformed_slots :
    [Instr.inboxWrite 645120 1, .acqfReread 645120, .strefused 645120, .taskStart 645120, .slotWake 645120,
      .watchdogForcedSwitch 645120, .fuseTimeout 645120, .entryAcceptance 645120 1, .entryAcceptance 0 (2 ^ 44),
      .crystallisation 645120 1, .crystallisation 0 (2 ^ 44), .phaseLimit 645120, .chunkRecord 645120 1 0, .chunkRecord 0 0 0,
      .copyCompletion 645120 1, .copyCompletion 0 (2 ^ 32), .maskShareCompletion 645120 1, .maskShareCompletion 0 0,
      .mhistCompletion 645120 1, .mhistCompletion 0 0, .walkRetry 645120, .receiveParityError (645120, 0, 8)].all
      (fun i => !i.wellFormed) = true := by decide

/-- R18: no core 161,280, no column 20,160; R387, R393, R398: no access without bytes, none astride its size. -/
theorem test_illformed_places :
    [Instr.flitDeparture 161280, .flitArrival 161280 0, .trecvWindowClose 161280 0, .dropNotice 161280,
      .messageDelivery 161280 0 0, .undeliverableNotice 161280 0, .jobStart 20160, .jobCompletion 20160, .replay 161280 (true, 0),
      .replayPeriod 161280, .vbusParityFailure 20160 1, .vbusParityFailure 0 0, .vbusParityFailure 0 4, .cxlMemRead 0 0 0,
      .cxlMemWrite 0 0 [], .registerWrite 0 (false, 4) [1, 2, 3, 4, 5, 6, 7, 8], .registerWrite 0 (false, 0) [1],
      .registerWrite 0 (false, 0x200000) [1, 2, 3, 4], .registerWrite 0 (true, 2) [1, 2, 3, 4],
      .handover 1 1, .deviceAccessArrival 0 0 []].all (fun i => !i.wellFormed) = true := by decide

/-! ## A word for every syllable (R178 to R185): p and class, major, then d, a, b and the nine bits below -/

theorem test_decode_c00 : ∀ p ∈ ([
    (0b00_000001_00000_00000_00000_000000000, .cnop),
    (0b00_000010_10011_10110_01110_001111010, .li 19 367738)] : List (Nat × Instr)),
    decodeBundle p.1 = .ok (p.2, none) := by decide

theorem test_decode_c04 : ∀ p ∈ ([
    (0b00_000100_10011_01010_10110_011100011, .addi 19 10 11491),
    (0b00_000101_10011_00011_00000_000000000, .movpToScalar 19 3),
    (0b00_000101_00101_01010_00000_000000001, .movpToPred 5 10),
    (0b00_000101_00101_00011_00110_000000010, .movpAnd 5 3 6),
    (0b00_000101_00101_00011_00110_000000011, .movpOr 5 3 6),
    (0b00_000101_00101_00011_00110_000000100, .movpXor 5 3 6),
    (0b00_000101_00101_00011_00000_000000101, .movpNot 5 3),
    (0b00_000110_10011_00000_10110_011100011, .getsr 19 11491),
    (0b00_000111_00000_01010_10110_011100011, .setsr 11491 10)] : List (Nat × Instr)),
    decodeBundle p.1 = .ok (p.2, none) := by decide

theorem test_decode_c08 : ∀ p ∈ ([
    (0b00_001000_00000_10110_01110_001111010, .br 367738),
    (0b00_001001_01101_10110_01110_001111010, .brp 5 true 367738),
    (0b00_001010_00000_10110_01110_001111010, .call 367738),
    (0b00_001011_10011_01010_00000_101100111, .jr 19 10 359)] : List (Nat × Instr)),
    decodeBundle p.1 = .ok (p.2, none) := by decide

theorem test_decode_c0c : ∀ p ∈ ([
    (0b00_001100_10011_10110_01110_001111010, .loop 19 367738),
    (0b00_001101_00000_00000_00000_000000000, .yield),
    (0b00_001110_10011_01010_00000_000000000, .fuse 19 10),
    (0b00_001110_00000_00000_00000_000000001, .split),
    (0b00_001111_00000_00000_00000_000000000, .tend)] : List (Nat × Instr)),
    decodeBundle p.1 = .ok (p.2, none) := by decide

theorem test_decode_c10 : ∀ p ∈ ([
    (0b00_010000_10011_01010_00110_101100111, .ld 19 10 2 true 359),
    (0b00_010001_10011_01010_00101_000001110, .ldx 19 10 5 2 true true),
    (0b00_010010_10011_01010_00010_101100111, .st 19 10 2 359),
    (0b00_010011_10011_01010_00101_000001010, .stx 19 10 5 2 true)] : List (Nat × Instr)),
    decodeBundle p.1 = .ok (p.2, none) := by decide

theorem test_decode_c14 : ∀ p ∈ ([
    (0b00_010100_10011_01010_00010_101100111, .vld 19 10 2 359),
    (0b00_010101_10011_01010_00010_101100111, .vst 19 10 2 359),
    (0b00_010110_10011_01010_00101_000000111, .vlds 19 10 5 true 3),
    (0b00_010111_10011_01010_00101_000000111, .vsts 19 10 5 true 3)] : List (Nat × Instr)),
    decodeBundle p.1 = .ok (p.2, none) := by decide

theorem test_decode_c18 : ∀ p ∈ ([
    (0b00_011000_10011_01010_00101_000000111, .vgath 19 10 5 true 3),
    (0b00_011001_10011_01010_00101_000000111, .vscat 19 10 5 true 3),
    (0b00_011010_10011_01010_00101_000010000, .amoAdd 19 10 5 true),
    (0b00_011010_10011_01010_00101_000010001, .amoSmin 19 10 5 true),
    (0b00_011010_10011_01010_00101_000010010, .amoSmax 19 10 5 true),
    (0b00_011010_10011_01010_00101_000010011, .amoUmin 19 10 5 true),
    (0b00_011010_10011_01010_00101_000010100, .amoUmax 19 10 5 true),
    (0b00_011010_10011_01010_00101_000010101, .amoAnd 19 10 5 true),
    (0b00_011010_10011_01010_00101_000010110, .amoOr 19 10 5 true),
    (0b00_011010_10011_01010_00101_000010111, .amoXor 19 10 5 true),
    (0b00_011010_10011_01010_00101_000011000, .amoSwap 19 10 5 true),
    (0b00_011010_10011_01010_00101_000011001, .amoCas 19 10 5 true),
    (0b00_011011_10011_00000_00000_000000000, .rel 19),
    (0b00_011011_10011_01010_00000_000000001, .relf 19 10)] : List (Nat × Instr)),
    decodeBundle p.1 = .ok (p.2, none) := by decide

theorem test_decode_c1c : ∀ p ∈ ([
    (0b00_011100_00000_01010_00101_000000000, .acq 10 5),
    (0b00_011100_10011_01010_00101_000000001, .acqf 19 10 5),
    (0b00_011101_00000_01010_00101_000000000, .acqr 10 5),
    (0b00_011101_00000_00000_00000_000000001, .acqrAll),
    (0b00_011110_10011_00000_00000_000000000, .fenceCore 19),
    (0b00_011110_10011_00000_00000_000000001, .fenceDevice 19),
    (0b00_011110_10011_00000_00000_000000010, .fenceSystem 19),
    (0b00_011110_00000_01010_00000_000000100, .waitf 10),
    (0b00_011111_00000_01010_00000_000000000, .reclaim 10),
    (0b00_011111_10011_01010_00000_000000001, .logqStat 19 10),
    (0b00_011111_10011_00000_00000_000000010, .logqTail 19),
    (0b00_011111_10011_01010_00000_000000011, .logqVoid 19 10),
    (0b00_011111_10011_01010_00000_000000100, .logqResend 19 10)] : List (Nat × Instr)),
    decodeBundle p.1 = .ok (p.2, none) := by decide

theorem test_decode_c20 : ∀ p ∈ ([
    (0b00_100000_10011_01010_00000_000000000, .cpy 19 10),
    (0b00_100001_10011_01010_00000_000000000, .cpyq 19 10),
    (0b00_100010_10011_01010_00101_000000110, .send 19 10 5 6),
    (0b00_100011_10011_00000_00000_000000000, .recv 19)] : List (Nat × Instr)),
    decodeBundle p.1 = .ok (p.2, none) := by decide

theorem test_decode_c24 : ∀ p ∈ ([
    (0b00_100100_10011_00000_00000_000000000, .poll 19),
    (0b00_100101_10011_00000_00000_000000000, .deq 19),
    (0b00_100110_10011_00000_00000_000000000, .epn 19),
    (0b00_100110_10011_01010_00000_000000001, .epnC 19 10),
    (0b00_100110_10011_00000_00000_000000010, .epnL 19),
    (0b00_100111_10011_00000_00000_000000000, .chkerr 19)] : List (Nat × Instr)),
    decodeBundle p.1 = .ok (p.2, none) := by decide

theorem test_decode_c28 : ∀ p ∈ ([
    (0b00_101000_10011_00000_00000_000000000, .bar 19),
    (0b00_101000_10011_00000_00000_000000001, .barC 19),
    (0b00_101001_10011_01010_00000_000000000, .bargen 19 10),
    (0b00_101010_00000_01010_00101_000000000, .barwait 10 5),
    (0b00_101011_00000_01010_00101_000000000, .ttload 10 5)] : List (Nat × Instr)),
    decodeBundle p.1 = .ok (p.2, none) := by decide

theorem test_decode_c2c : ∀ p ∈ ([
    (0b00_101100_00000_01010_00101_000000000, .tsend 10 5),
    (0b00_101101_00000_01010_00101_000000000, .trecv 10 5),
    (0b00_101110_10011_00000_00000_000000000, .commend 19),
    (0b00_101111_10011_01010_00101_000000000, .mtrx 19 10 5)] : List (Nat × Instr)),
    decodeBundle p.1 = .ok (p.2, none) := by decide

theorem test_decode_c30 : ∀ p ∈ ([
    (0b00_110000_10011_01010_00000_000000000, .mq 19 10),
    (0b00_110001_10011_01010_00000_000000000, .mpoll 19 10),
    (0b00_110010_00000_01010_00000_000000000, .mwait 10),
    (0b00_110011_00000_01010_00101_000100011, .accld 10 5 4 3)] : List (Nat × Instr)),
    decodeBundle p.1 = .ok (p.2, none) := by decide

theorem test_decode_c34 : ∀ p ∈ ([
    (0b00_110100_00000_01010_00101_000100011, .accst 10 5 4 3),
    (0b00_110101_10011_01010_00000_000000000, .mbind 19 10),
    (0b00_110101_10011_01010_00000_000000001, .mver 19 10),
    (0b00_110110_00000_01010_00000_000000000, .munbind 10),
    (0b00_110110_00000_01010_00000_000000001, .mreset 10),
    (0b00_110111_10011_01010_00000_000000000, .mupd 19 10),
    (0b00_110111_10011_01010_00000_000000001, .mhist 19 10)] : List (Nat × Instr)),
    decodeBundle p.1 = .ok (p.2, none) := by decide

theorem test_decode_c38 : ∀ p ∈ ([
    (0b00_111000_00000_01010_00000_000000000, .trap 10),
    (0b00_111000_10011_01010_00000_000000001, .gkill 19 10),
    (0b00_111001_00000_00000_00000_000000000, .eret),
    (0b00_111010_00000_00010_11001_110001111, .sigchk 45967),
    (0b00_111011_00000_01010_00101_000000000, .tinv 10 5),
    (0b00_111011_00000_00000_00000_000000001, .tinvAll)] : List (Nat × Instr)),
    decodeBundle p.1 = .ok (p.2, none) := by decide

theorem test_decode_c3c : ∀ p ∈ ([
    (0b00_111100_00000_01010_10110_011100011, .pref 10 11491)] : List (Nat × Instr)),
    decodeBundle p.1 = .ok (p.2, none) := by decide

theorem test_decode_a00 : ∀ p ∈ ([
    (0b01_000001_10011_01010_00101_000000000, .add 19 10 5),
    (0b01_000010_10011_01010_00101_000000000, .sub 19 10 5),
    (0b01_000011_10011_01010_00101_000000000, .mul 19 10 5),
    (0b01_000011_10011_01010_00101_000000001, .mulhs 19 10 5),
    (0b01_000011_10011_01010_00101_000000010, .mulhu 19 10 5)] : List (Nat × Instr)),
    decodeBundle p.1 = .ok (p.2, none) := by decide

theorem test_decode_a04_0 : ∀ p ∈ ([
    (0b01_000100_10011_01010_00101_000000000, .div 19 10 5),
    (0b01_000100_10011_01010_00101_000000001, .divu 19 10 5),
    (0b01_000100_10011_01010_00101_000000010, .rem 19 10 5),
    (0b01_000100_10011_01010_00101_000000011, .remu 19 10 5),
    (0b01_000101_10011_01010_00101_000000000, .and 19 10 5),
    (0b01_000101_10011_01010_00101_000000001, .or 19 10 5),
    (0b01_000101_10011_01010_00101_000000010, .xor 19 10 5),
    (0b01_000101_10011_01010_00101_000000011, .andn 19 10 5),
    (0b01_000101_10011_01010_00101_000000100, .orn 19 10 5),
    (0b01_000101_10011_01010_00101_000000101, .xnor 19 10 5),
    (0b01_000110_10011_01010_00101_000000000, .shl 19 10 5),
    (0b01_000110_10011_01010_00101_000000001, .shr 19 10 5),
    (0b01_000110_10011_01010_00101_000000010, .sra 19 10 5),
    (0b01_000110_10011_01010_00101_000000011, .rol 19 10 5),
    (0b01_000111_10011_01010_00101_000000000, .smin 19 10 5),
    (0b01_000111_10011_01010_00101_000000001, .smax 19 10 5)] : List (Nat × Instr)),
    decodeBundle p.1 = .ok (p.2, none) := by decide

theorem test_decode_a04_1 : ∀ p ∈ ([
    (0b01_000111_10011_01010_00101_000000010, .umin 19 10 5),
    (0b01_000111_10011_01010_00101_000000011, .umax 19 10 5)] : List (Nat × Instr)),
    decodeBundle p.1 = .ok (p.2, none) := by decide

theorem test_decode_a08 : ∀ p ∈ ([
    (0b01_001000_10011_01010_00000_000000000, .clz 19 10),
    (0b01_001000_10011_01010_00000_000000001, .ctz 19 10),
    (0b01_001000_10011_01010_00000_000000010, .popc 19 10),
    (0b01_001000_10011_01010_00000_000000011, .brev 19 10),
    (0b01_001000_10011_01010_00000_000000100, .bswap 19 10),
    (0b01_001001_00101_01010_00101_000000000, .cmpEq 5 10 5),
    (0b01_001001_00101_01010_00101_000000001, .cmpNe 5 10 5),
    (0b01_001001_00101_01010_00101_000000010, .cmpLt 5 10 5),
    (0b01_001001_00101_01010_00101_000000011, .cmpLe 5 10 5),
    (0b01_001001_00101_01010_00101_000000100, .cmpLtu 5 10 5),
    (0b01_001001_00101_01010_00101_000000101, .cmpLeu 5 10 5),
    (0b01_001010_10011_01010_00101_000000000, .sel 19 10 5),
    (0b01_001011_10011_01010_00101_000000000, .bfx 19 10 5),
    (0b01_001011_10011_01010_00101_000000001, .bfi 19 10 5)] : List (Nat × Instr)),
    decodeBundle p.1 = .ok (p.2, none) := by decide

theorem test_decode_a0c : ∀ p ∈ ([
    (0b01_001100_10011_01010_00101_000000000, .adda 19 10 5)] : List (Nat × Instr)),
    decodeBundle p.1 = .ok (p.2, none) := by decide

theorem test_decode_a10 : ∀ p ∈ ([
    (0b01_010000_10011_01010_00101_011001000, .fadd 1 19 10 5 3),
    (0b01_010001_10011_01010_00101_011001000, .fsub 1 19 10 5 3),
    (0b01_010010_10011_01010_00101_011001000, .fmul 1 19 10 5 3),
    (0b01_010011_10011_01010_00101_011001000, .ffma 1 19 10 5 3)] : List (Nat × Instr)),
    decodeBundle p.1 = .ok (p.2, none) := by decide

theorem test_decode_a14 : ∀ p ∈ ([
    (0b01_010100_10011_01010_00101_011001000, .fdiv 1 19 10 5 3),
    (0b01_010101_10011_01010_00000_011001000, .fsqrt 1 19 10 3),
    (0b01_010110_10011_01010_00101_000001000, .fmin 1 19 10 5),
    (0b01_010110_10011_01010_00101_000001001, .fmax 1 19 10 5),
    (0b01_010110_10011_01010_00101_000001010, .fminn 1 19 10 5),
    (0b01_010110_10011_01010_00101_000001011, .fmaxn 1 19 10 5),
    (0b01_010111_00101_01010_00101_000001000, .fcmpEq 1 5 10 5),
    (0b01_010111_00101_01010_00101_000001001, .fcmpNe 1 5 10 5),
    (0b01_010111_00101_01010_00101_000001010, .fcmpLt 1 5 10 5),
    (0b01_010111_00101_01010_00101_000001011, .fcmpLe 1 5 10 5),
    (0b01_010111_00101_01010_00101_000001100, .fcmpUn 1 5 10 5),
    (0b01_010111_00101_01010_00101_000001101, .fcmpOrd 1 5 10 5)] : List (Nat × Instr)),
    decodeBundle p.1 = .ok (p.2, none) := by decide

theorem test_decode_a18 : ∀ p ∈ ([
    (0b01_011000_10011_01010_00000_011001010, .fcvt 1 2 19 10 3),
    (0b01_011000_10011_01010_00001_011001010, .fcvtu 1 2 19 10 3),
    (0b01_011001_10011_01010_00000_000001000, .fclass 1 19 10),
    (0b01_011010_10011_01010_00000_000001000, .fabs 1 19 10),
    (0b01_011010_10011_01010_00000_000001001, .fneg 1 19 10),
    (0b01_011010_10011_01010_00101_000001010, .fcpsgn 1 19 10 5),
    (0b01_011011_10011_01010_00000_000001000, .exp2 1 19 10),
    (0b01_011011_10011_01010_00000_000001001, .log2 1 19 10),
    (0b01_011011_10011_01010_00000_000001010, .sin 1 19 10),
    (0b01_011011_10011_01010_00000_000001011, .cos 1 19 10),
    (0b01_011011_10011_01010_00000_000001100, .tanh 1 19 10),
    (0b01_011011_10011_01010_00000_000001101, .rcp 1 19 10),
    (0b01_011011_10011_01010_00000_000001110, .rsq 1 19 10)] : List (Nat × Instr)),
    decodeBundle p.1 = .ok (p.2, none) := by decide

theorem test_decode_a20 : ∀ p ∈ ([
    (0b01_100000_10011_01010_00101_011001000, .vadd 1 19 10 5 3),
    (0b01_100001_10011_01010_00101_011001000, .vsub 1 19 10 5 3),
    (0b01_100010_10011_01010_00101_011001000, .vmul 1 19 10 5 3),
    (0b01_100011_10011_01010_00101_011001000, .vfma 1 19 10 5 3)] : List (Nat × Instr)),
    decodeBundle p.1 = .ok (p.2, none) := by decide

theorem test_decode_a24_0 : ∀ p ∈ ([
    (0b01_100100_10011_01010_00101_000001000, .vmin 1 19 10 5),
    (0b01_100100_10011_01010_00101_000001001, .vmax 1 19 10 5),
    (0b01_100101_10011_01010_00101_000000000, .vand 19 10 5),
    (0b01_100101_10011_01010_00101_000000001, .vor 19 10 5),
    (0b01_100101_10011_01010_00101_000000010, .vxor 19 10 5),
    (0b01_100101_10011_01010_00101_000000011, .vandn 19 10 5),
    (0b01_100101_10011_01010_00101_000000100, .vorn 19 10 5),
    (0b01_100101_10011_01010_00101_000000101, .vxnor 19 10 5),
    (0b01_100110_10011_01010_00101_000110000, .vshl 2 19 10 5),
    (0b01_100110_10011_01010_00101_000110001, .vshr 2 19 10 5),
    (0b01_100110_10011_01010_00101_000110010, .vsra 2 19 10 5),
    (0b01_100110_10011_01010_00101_000110011, .vrol 2 19 10 5),
    (0b01_100111_10011_01010_00101_000001000, .vcmpEq 1 19 10 5),
    (0b01_100111_10011_01010_00101_000001001, .vcmpNe 1 19 10 5),
    (0b01_100111_10011_01010_00101_000001010, .vcmpLt 1 19 10 5),
    (0b01_100111_10011_01010_00101_000001011, .vcmpLe 1 19 10 5)] : List (Nat × Instr)),
    decodeBundle p.1 = .ok (p.2, none) := by decide

theorem test_decode_a24_1 : ∀ p ∈ ([
    (0b01_100111_10011_01010_00101_000001100, .vcmpUnLtu 1 19 10 5),
    (0b01_100111_10011_01010_00101_000001101, .vcmpOrdLeu 1 19 10 5)] : List (Nat × Instr)),
    decodeBundle p.1 = .ok (p.2, none) := by decide

theorem test_decode_a28 : ∀ p ∈ ([
    (0b01_101000_10011_01010_00101_000001000, .vsel 1 19 10 5),
    (0b01_101001_10011_01010_00101_011001010, .vcvt 1 2 5 19 10 3),
    (0b01_101001_10011_01010_01101_011001010, .vcvtu 1 2 5 19 10 3),
    (0b01_101010_10011_01010_00000_000001000, .vexp2 1 19 10),
    (0b01_101010_10011_01010_00000_000001001, .vlog2 1 19 10),
    (0b01_101010_10011_01010_00000_000001010, .vsin 1 19 10),
    (0b01_101010_10011_01010_00000_000001011, .vcos 1 19 10),
    (0b01_101010_10011_01010_00000_000001100, .vtanh 1 19 10),
    (0b01_101010_10011_01010_00000_000001101, .vrcp 1 19 10),
    (0b01_101010_10011_01010_00000_000001110, .vrsq 1 19 10),
    (0b01_101011_10011_01010_00000_011001000, .vredSum 1 19 10 3),
    (0b01_101011_10011_01010_00000_000001001, .vredMin 1 19 10),
    (0b01_101011_10011_01010_00000_000001010, .vredMax 1 19 10)] : List (Nat × Instr)),
    decodeBundle p.1 = .ok (p.2, none) := by decide

theorem test_decode_a2c : ∀ p ∈ ([
    (0b01_101100_10011_01010_00101_000001000, .vshuf 1 19 10 5),
    (0b01_101101_10011_01010_00000_000001000, .vbcast 1 19 10),
    (0b01_101101_10011_01010_00101_000001001, .vins 1 19 10 5),
    (0b01_101101_10011_01010_00101_000001010, .vext 1 19 10 5),
    (0b01_101110_10011_01010_00101_000101000, .vrngI32 19 10 5),
    (0b01_101110_10011_01010_00101_000001000, .vrngF32 19 10 5),
    (0b01_101111_10011_01010_00101_011001000, .vdrop 19 10 5 3)] : List (Nat × Instr)),
    decodeBundle p.1 = .ok (p.2, none) := by decide

theorem test_decode_a30 : ∀ p ∈ ([
    (0b01_110000_10011_01010_00101_011001000, .vquantE4m3 19 10 5 3),
    (0b01_110000_10011_01010_00101_011001001, .vquantE5m2 19 10 5 3),
    (0b01_110000_10011_01010_00101_011001010, .vquantInt8 19 10 5 3),
    (0b01_110001_10011_01010_00001_011001000, .vdeqE4m3 19 10 true 3),
    (0b01_110001_10011_01010_00001_011001001, .vdeqE5m2 19 10 true 3),
    (0b01_110001_10011_01010_00001_011001010, .vdeqInt8 19 10 true 3),
    (0b01_110011_10011_01010_00101_000001000, .vgab 19 10 5)] : List (Nat × Instr)),
    decodeBundle p.1 = .ok (p.2, none) := by decide

theorem test_decode_a34 : ∀ p ∈ ([
    (0b01_110100_10011_01010_00101_011001000, .vgabr 19 10 5 3),
    (0b01_110101_10011_01010_00101_000001000, .vabf 1 19 10 5),
    (0b01_110110_10011_01010_00101_000001000, .vabfadd true 19 10 5),
    (0b01_110111_10011_01010_00101_011001000, .vabfx 1 19 10 5 3)] : List (Nat × Instr)),
    decodeBundle p.1 = .ok (p.2, none) := by decide

theorem test_decode_a38 : ∀ p ∈ ([
    (0b01_111000_10011_01010_00000_000001000, .vexpmax 1 19 10)] : List (Nat × Instr)),
    decodeBundle p.1 = .ok (p.2, none) := by decide

/-- LIX and LIX.HI (R205); the no-op majors (R185). -/
theorem test_decode_long :
    decodeBundle 0x8000000103983001 = .ok (.lix 19 0x300180000001, none) ∧
    decodeBundle 0xDEADBEEF039C0000 = .ok (.lixHi 19 0xDEADBEEF, none) ∧
    decodeBundle 0b00_111101_00000_00000_00000_000000111 = .ok (.cHint 0x3D 7, none) ∧
    decodeBundle 0b01_111111_00000_00000_00000_000000111 = .ok (.aHint 7, none) := by decide

/-! ## Small states -/

/-- A task is running: group 1 of partition 0, slot 0 of core 0, its code at 0x200000, its protection regions open over
the whole scratchpad, a ring of 1,024 bytes at its start. -/
def lab : State :=
  (State.reset.placeBundle 0).modSlot 0 fun t =>
    { t with sys := { t.sys with inbox := 1, prgn := t.sys.prgn.set 0 0xFFE00079 } }

/-- lab with its slot changed. -/
def labT (f : Slot → Slot) : State := lab.modSlot 0 f

/-- A task's registers with x in s1, y in s2 and z in s3. -/
def Regs.three (x y z : Word) : Regs := { Regs.start with s := ((Regs.start.s.set 1 x).set 2 y).set 3 z }

/-- lab with x in s1, y in s2 and z in s3. -/
def lab3 (x y z : Word) : State := labT fun t => { t with regs := Regs.three x y z }

/-- lab with x, y and z in v1, v2 and v3. -/
def labV (x y z : Vec) : State :=
  labT fun t => { t with regs := { t.regs with v := ((t.regs.v.set 1 x).set 2 y).set 3 z } }

/-- lab at supervisor level, in a handler. -/
def labSup : State := labT fun t => { t with trap := { t.trap with status := 1 } }

/-- lab as a service task. -/
def labSvc : State := labT fun t => { t with sys := { t.sys with tgext := 0x10000000 } }

/-- lab in a communication phase. -/
def labPhase : State :=
  lab.modCore 0 fun c => { c with phase := some { slot := 0, t0 := 0, windows := [], sentEnd := 0, got := 0, sends := [] } }

/-- lab with a partition changed. -/
def labP (f : Part → Part) : State := lab.modPart 0 f

/-- The slot-less gang of the first slots of cores 0 and 1. -/
def pair : Gang := { members := [0, 4], joining := [] }

/-! ## States and operands that meet the hypotheses of the statements -/

/-- A machine that has lost no column answers for every byte. -/
theorem kept {s : State} (hl : s.lost = []) (hu : s.mc.unplaced = []) (k : Nat) : s.isLost k = false := by
  unfold State.isLost
  split <;> simp [hl, hu]

theorem witness_DivisionResults :
    (lab3 7 0 0).rs 2 = 0 ∧
    (((lab3 0x8000000000000000 0xFFFFFFFFFFFFFFFF 0).rs 1).toInt = -2 ^ 63 ∧
      ((lab3 0x8000000000000000 0xFFFFFFFFFFFFFFFF 0).rs 2).toInt = -1) ∧
    ((lab3 7 0xFFFFFFFFFFFFFFFF 0).rs 2 ≠ 0 ∧ ¬ (((lab3 7 0xFFFFFFFFFFFFFFFF 0).rs 1).toInt = -2 ^ 63 ∧
      ((lab3 7 0xFFFFFFFFFFFFFFFF 0).rs 2).toInt = -1)) := by decide

theorem witness_BitCountsAndReversals : lab.rs 1 = 0 ∧ (lab3 1 0 0).rs 1 ≠ 0 := by decide

theorem witness_ComparesSelectsAndFields :
    (lab3 5 0 9).rs 3 ≠ 0 ∧ (lab3 5 0 0).rs 3 = 0 ∧ min 64 (((lab3 5 0x3F 0).rs 2).toNat / 2 ^ 8 % 128) = 0 ∧
    ((lab3 5 0x0400 0).rs 2).getLsbD 16 = false ∧
    (0 < min 64 (((lab3 5 0x10100 0).rs 2).toNat / 2 ^ 8 % 128) ∧ ((lab3 5 0x10100 0).rs 2).getLsbD 16 = true) := by decide

theorem witness_ResultsLand :
    ((31 : SReg) ≠ 0 ∧ (1 : SReg) ≠ 31 ∧ (7 : PReg) ≠ 0 ∧ (0 : VReg) ≠ 31) ∧
    ((∀ n v, Landing.sreg 1 5 ≠ .sysreg n v) ∧ ∀ who o bs, Landing.sreg 1 5 ≠ .block who o bs) ∧
    (Memory.wf lab.mem = true ∧ lab.isLost (lab.ownKey 0x40) = false ∧ 0x40 + [1, 2, 3].length ≤ 2 ^ 17) ∧
    ((1 : SReg) ≠ 0 ∧ (labT fun t => { t with flight := [{ left := 4, what := .sreg 1 5 }] }).me.flight =
      [{ left := 4, what := .sreg 1 5 }] ∧ 1 ≤ 4) :=
  ⟨by decide, ⟨by simp, by simp⟩, by decide, by decide⟩

theorem witness_BranchesAndLoops :
    (lab.ctlP 1 = false ∧ lab.ctlP 0 ≠ false) ∧
    ((BitVec.ofInt 64 ((lab.ctlS 1).toInt + 8 * (3 : BitVec 9).toInt)).toNat % 8 = 0 ∧
      (BitVec.ofInt 64 (((lab3 7 0 0).ctlS 1).toInt + 8 * (3 : BitVec 9).toInt)).toNat % 8 ≠ 0) ∧
    lab.gangless lab.cur ∧
    ((0 : BitVec 19).toInt ≤ 0 ∧ 0 < (1 : BitVec 19).toInt ∧ lab.rs 1 = 0 ∧ (lab3 1 0 0).rs 1 ≠ 0) ∧
    (4 ≤ (labT fun t => { t with regs := Regs.three 1 0 0, loops := List.replicate 4 ⟨0, 8, 1⟩ }).me.loops.length ∧
      (lab3 1 0 0).me.loops.length < 4) :=
  ⟨by decide, by decide, rfl, by decide, by decide⟩

/-- lab with open loops, at pc 0x200000. -/
def labLoops (ls : List LoopEntry) (f : Flow) : State := { labT fun t => { t with loops := ls } with flow := f }

theorem witness_BundleGoesOn :
    (∀ ls f, (labLoops ls f).gangless (labLoops ls f).cur) ∧
    (labLoops [] (.taken 0x200040 true)).flow = .taken 0x200040 true ∧ (labLoops [] .seq).me.loops = [] ∧
    ((labLoops [⟨0, 8, 1⟩] .seq).me.loops = [⟨0, 8, 1⟩] ∧ (8 : Word) ≠ (labLoops [⟨0, 8, 1⟩] .seq).me.pc) ∧
    ((LoopEntry.mk 0x1FFFF8 0x200000 2).last = (labLoops [⟨0x1FFFF8, 0x200000, 2⟩] .seq).me.pc ∧ (2 : Word) ≠ 1) ∧
    (LoopEntry.mk 0x1FFFF8 0x200000 1).last = (labLoops [⟨0x1FFFF8, 0x200000, 1⟩, ⟨0x1FFFF0, 0x200000, 3⟩] .seq).me.pc ∧
    (labLoops [⟨0x1FFFF8, 0x200000, 1⟩, ⟨0x1FFFF0, 0x200000, 3⟩] .seq).me.loops =
      [⟨0x1FFFF8, 0x200000, 1⟩, ⟨0x1FFFF0, 0x200000, 3⟩] :=
  ⟨fun _ _ => rfl, by decide, by decide, by decide, by decide, by decide, by decide⟩

/-- lab3 with the slot of core 1 asleep in a FUSE of the mask 3. -/
def labFuse : State :=
  (lab3 3 0 0).modSlot 4 fun t => { Slot.placed t with status := .asleep, cond := .gang 3 65536 }

theorem witness_GangsAndYield :
    (lab.inPhase = false ∧ labPhase.inPhase = true) ∧ (∀ g ∈ lab.gangs, lab.cur ∉ g.members) ∧
    (({ lab with gangs := [pair] }).gangs.find? (fun g => g.members.contains lab.cur) = some pair ∧ pair.members = 0 :: [4]) ∧
    (labSup.me.sup = true ∨ labSup.inPhase = true) ∧
    (lab.me.sup = false ∧ lab.fused = false ∧ ¬ State.gangless { lab with gangs := [pair] } 0) ∧
    ({ lab with gangs := [{ pair with joining := [0] }] }).fused = true ∧
    (lab.gangless lab.cur ∧ (labT fun t => { t with fuseOut := true }).me.fuseOut = true) ∧
    (lab.me.fuseOut = false ∧ (((lab3 2 0 0).rs 1).toNat % 256).testBit (coreNo 0) = false ∧
      (((lab3 3 0 0).rs 1).toNat % 256).testBit (coreNo 0) = true ∧ (lab3 3 0 0).fusers 3 = none) ∧
    (labFuse.fused = false ∧ labFuse.gangless labFuse.cur ∧ labFuse.inPhase = false ∧ labFuse.fusers 3 = some [0, 4]) := by
  unfold State.gangless
  decide

/-- lab with the group of its task listed and a trap vector. -/
def labVec : State := labP fun p => { p with trapvec := 0x300001 }

theorem witness_TrapEntryOrKill :
    ((((labVec.landSwitch 0).undoRedo 0).slot 0).sup = false ∧ ((labVec.landSwitch 0).undoRedo 0).gangless 0 ∧
      (∃ p, ((labVec.landSwitch 0).undoRedo 0).partAt (lcolOf 0) = some (0, p) ∧ ((labVec.landSwitch 0).undoRedo 0).part? 0 = some p ∧
        p.trapvec.getLsbD 0 = true)) ∧
    (((lab.landSwitch 0).undoRedo 0).gangless 0 ∧ ∃ p, ((lab.landSwitch 0).undoRedo 0).partAt (lcolOf 0) = some ((((lab.landSwitch 0).undoRedo 0).slot 0).partNo, p) ∧
      ((lab.landSwitch 0).undoRedo 0).part? (((lab.landSwitch 0).undoRedo 0).slot 0).partNo = some p ∧ Group.placed ∈ p.groups ∧
      Group.placed.tgid = (((lab.landSwitch 0).undoRedo 0).slot 0).tgid ∧ p.trapvec.getLsbD 0 = false) :=
  ⟨⟨by decide, rfl, _, rfl, rfl, by decide⟩, rfl, _, rfl, rfl, by decide, by decide, by decide⟩

theorem witness_TrapReturnAndPrivilege :
    (labSup.me.sup = true ∧ labSup.me.quar = false) ∧ (lab.me.sup = false ∧ lab.inPhase = false) := by
  decide

theorem witness_SystemRegisterReads :
    (∃ p, lab.part? lab.myPart = some p) ∧ feedA 0xFFFF (lab.ir) = 0xFFFF ∧ feedA lab.me.sig lab.ir ≠ 0 ∧
    lab.ir.getLsbD 31 = false :=
  ⟨⟨_, rfl⟩, by decide⟩

theorem witness_SetsrWrites : labSup.me.sup = true ∧ (0x178 ≤ (0x178 : BitVec 14).toNat) ∧ 0x100 ≤ (0x177 : BitVec 14).toNat := by
  decide

/-- 1.0, 3.0, 1.5, -2.5 and 1e10 of F32, and its special values. -/
def one32 : Word := 0x3F800000
def three32 : Word := 0x40400000

theorem witness_RoundingOnce :
    (3 % 2 ^ 0 = 0 ∧ ¬ 3 % 2 ^ 1 = 0 ∧ 2 * (3 % 2 ^ 1) = 2 ^ 1) ∧
    (0x3F800000 < 2 ^ fwidth 1 ∧ (tyOf 1).decode 0x3F800000 = .fin false 0x800000 (-23)) ∧
    ∃ v fl, Completes (.fadd 1 3 1 2 0) (lab3 one32 three32 0) (fpres 4 3 v fl) := by
  refine ⟨by decide, by decide, ?_⟩
  exact ⟨0x40800000, 0, rfl⟩

theorem val_one : (lab3 one32 one32 one32).val 1 1 = .fin false 0x800000 (-23) ∧
    (lab3 one32 one32 one32).val 1 2 = .fin false 0x800000 (-23) ∧
    (lab3 one32 one32 one32).val 1 3 = .fin false 0x800000 (-23) := by decide

theorem val_two : (lab3 one32 three32 0).val 1 1 = .fin false 0x800000 (-23) ∧
    (lab3 one32 three32 0).val 1 2 = .fin false 0xC00000 (-22) := by decide

theorem witness_FloatArithmetic :
    (((lab3 one32 one32 one32).val 1 1).isFin ∧ ((lab3 one32 one32 one32).val 1 2).isFin ∧
      ((lab3 one32 one32 one32).val 1 3).isFin) ∧
    ((lab3 one32 one32 one32).val 1 1).toRat + ((lab3 one32 one32 one32).val 1 2).toRat ≠ 0 ∧
    ((lab3 one32 three32 0).val 1 1).toRat - ((lab3 one32 three32 0).val 1 2).toRat ≠ 0 ∧
    ((lab3 one32 one32 one32).val 1 1).toRat * ((lab3 one32 one32 one32).val 1 2).toRat ≠ 0 ∧
    ((lab3 one32 one32 one32).val 1 1).toRat * ((lab3 one32 one32 one32).val 1 2).toRat +
      ((lab3 one32 one32 one32).val 1 3).toRat ≠ 0 := by
  refine ⟨by decide, ?_, ?_, ?_, ?_⟩
  · rw [val_one.1, val_one.2.1]; norm_num [Val.toRat]
  · rw [val_two.1, val_two.2]; norm_num [Val.toRat]
  · rw [val_one.1, val_one.2.1]; norm_num [Val.toRat]
  · rw [val_one.1, val_one.2.1, val_one.2.2]; norm_num [Val.toRat]

theorem witness_FloatSpecialOperands :
    ((lab3 0x7F800001 one32 0).val 1 1).isNan ∧
    ((lab3 0x7F800000 0xFF800000 0).val 1 1 = .inf false ∧ (lab3 0x7F800000 0xFF800000 0).val 1 2 = .inf true) ∧
    ((lab3 0xFF800000 0xFF800000 0).val 1 1 = .inf true ∧ (lab3 0xFF800000 0xFF800000 0).val 1 2 = .inf true) ∧
    ((lab3 0x7F800000 0x80000000 0).val 1 1 = .inf false ∧ (lab3 0x7F800000 0x80000000 0).val 1 2 = .fin true 0 (-149)) ∧
    ((lab3 0 0x80000000 0).val 1 1 = .fin false 0 (-149) ∧ (lab3 0 0x80000000 0).val 1 2 = .fin true 0 (-149)) ∧
    ((lab3 one32 0x80000000 0).val 1 1 = .fin false 0x800000 (-23) ∧ (0x800000 : Nat) ≠ 0) ∧
    (lab3 0xBF800000 0 0).val 1 1 = .fin true 0x800000 (-23) := by decide

theorem witness_FloatMinMaxCompare :
    (((lab3 one32 0x7F800000 0).val 1 1).isNan = false ∧ ((lab3 one32 0x7F800000 0).val 1 2).isNan = false ∧
      ((lab3 one32 0x7F800000 0).val 1 1).ext < ((lab3 one32 0x7F800000 0).val 1 2).ext) ∧
    ((lab3 0x80000000 0 0).val 1 1 = .fin true 0 (-149) ∧ (lab3 0x80000000 0 0).val 1 2 = .fin false 0 (-149)) ∧
    ((lab3 0x7FC00000 one32 0).val 1 1 = .nan false ∧ ((lab3 0x7FC00000 one32 0).val 1 2).isNan = false) ∧
    ((lab3 0x7F800001 one32 0).val 1 1 = .nan true ∧ ((lab3 0x7F800001 one32 0).val 1 2).isNan = false) := by
  refine ⟨⟨by decide, by decide, ?_⟩, by decide⟩
  rw [show (lab3 one32 0x7F800000 0).val 1 1 = .fin false 0x800000 (-23) from by decide,
    show (lab3 one32 0x7F800000 0).val 1 2 = .inf false from by decide]
  exact WithBot.coe_lt_coe.2 (WithTop.coe_lt_top _)

theorem witness_FloatConvert :
    ((1 : VTy).toNat < 4 ∧ ((fmtOf 1).decode ((lab3 one32 0 0).rs 1).toNat).isNan = false) ∧
    (4 ≤ (5 : VTy).toNat ∧ Int.bmod ((lab3 0x1FF 0 0).rs 1).toNat (2 ^ intWidth 5) ≠ 0 ∧
      Int.bmod (lab.rs 1).toNat (2 ^ intWidth 5) = 0) ∧ (1 : VTy) ≠ 2 ∧
    ((-(2 ^ (intWidth 7 - 1)) : Int) ≤ Int.bmod ((lab3 0x7F 0 0).rs 1).toNat (2 ^ intWidth 5) ∧
      Int.bmod ((lab3 0x7F 0 0).rs 1).toNat (2 ^ intWidth 5) ≤ 2 ^ (intWidth 7 - 1) - 1) ∧
    Int.bmod ((lab3 0xFFFFFF7F 0 0).rs 1).toNat (2 ^ intWidth 5) < -(2 ^ (intWidth 7 - 1)) ∧
    2 ^ (intWidth 7 - 1) - 1 < Int.bmod ((lab3 0x80 0 0).rs 1).toNat (2 ^ intWidth 5) ∧
    ((fmtOf 1).decode ((lab3 0x7FC00000 0 0).rs 1).toNat).isNan := by decide

theorem witness_FloatConvert_floor :
    (((fmtOf 1).decode ((lab3 one32 0 0).rs 1).toNat).toRat ≠ 0) ∧ (((fmtOf 1).decode ((lab3 one32 0 0).rs 1).toNat).isFin ∧
      (-128 : Int) ≤ ⌊((fmtOf 1).decode ((lab3 one32 0 0).rs 1).toNat).toRat⌋ ∧
      ⌊((fmtOf 1).decode ((lab3 one32 0 0).rs 1).toNat).toRat⌋ ≤ 127) ∧
    127 < ⌊((fmtOf 1).decode ((lab3 0x43000000 0 0).rs 1).toNat).toRat⌋ ∧
    ⌊((fmtOf 1).decode ((lab3 0xC3010000 0 0).rs 1).toNat).toRat⌋ < -128 := by
  rw [show (fmtOf 1).decode ((lab3 one32 0 0).rs 1).toNat = .fin false 0x800000 (-23) from by decide,
    show (fmtOf 1).decode ((lab3 0x43000000 0 0).rs 1).toNat = .fin false 0x800000 (-16) from by decide,
    show (fmtOf 1).decode ((lab3 0xC3010000 0 0).rs 1).toNat = .fin true 0x810000 (-16) from by decide]
  norm_num [Val.toRat, Val.isFin]

theorem witness_FloatSignAndClass :
    (tyOf 1).decode 0x7FC00000 = .nan false ∧ (tyOf 1).decode 0x7F800001 = .nan true ∧
    (tyOf 1).decode 0x7F800000 = .inf false ∧ (tyOf 1).decode 0xFF800000 = .inf true ∧ ((tyOf 1).decode 0).isFin := by decide

theorem witness_TranscendentalExactCases :
    (1 : FTy).toNat < 2 ∧ (lab3 0x80000000 0 0).val 1 1 = .fin true 0 (-149) ∧ (lab3 0x7F800000 0 0).val 1 1 = .inf false ∧
    (lab3 0xFF800000 0 0).val 1 1 = .inf true ∧ (lab3 0xBF800000 0 0).val 1 1 = .fin true 0x800000 (-23) := by decide

theorem witness_TranscendentalExactCases_powers :
    (((lab3 one32 0 0).val 1 1).isFin = true ∧ ((lab3 one32 0 0).val 1 1).toRat = (1 : Int) ∧
      (-149 : Int) ≤ 1 ∧ (1 : Int) ≤ 127 ∧ ((lab3 one32 0 0).val 1 1).toRat = 2 ^ (0 : Int) ∧
      ((lab3 one32 0 0).val 1 1).toRat = 2 ^ (2 * 0 : Int)) ∧
    ((lab3 0xBF800000 0 0).val 1 1).toRat = -2 ^ (0 : Int) ∧
    ((0x800000 : Nat) ≠ 0 ∧ (lab3 one32 0 0).val 1 1 = .fin false 0x800000 (-23) ∧
      |((lab3 one32 0 0).val 1 1).toRat| ≤ 2 ^ 20) ∧ 2 ≤ (2 : FTy).toNat := by
  rw [show (lab3 one32 0 0).val 1 1 = .fin false 0x800000 (-23) from by decide,
    show (lab3 0xBF800000 0 0).val 1 1 = .fin true 0x800000 (-23) from by decide]
  refine ⟨?_, ?_, ?_, by decide⟩ <;> norm_num [Val.toRat, Val.isFin]

theorem witness_VectorTypes : (3 : VTy).toNat < 4 ∧ 4 ≤ (4 : VTy).toNat ∧ 512 / laneWidth 1 ≤ 512 / laneWidth 2 ∧
    512 / laneWidth 0 < 512 / laneWidth 7 := by decide

theorem witness_VectorReductions :
    (∀ j, ¬ (j < 512 / fwidth 1 ∧ ((tyOf 1).decode (lab.lane (fwidth 1) j 1)).isFin ∧
      ((tyOf 1).decode (lab.lane (fwidth 1) j 1)).toRat ≠ 0)) ∧
    ∃ j, j < 512 / fwidth 1 ∧ ((tyOf 1).decode ((labV 0x3F800000 0 0).lane (fwidth 1) j 1)).isFin ∧
      ((tyOf 1).decode ((labV 0x3F800000 0 0).lane (fwidth 1) j 1)).toRat ≠ 0 := by
  refine ⟨?_, 0, by decide +kernel, by decide +kernel, ?_⟩
  · rintro j ⟨hj, -, h⟩
    have hz : ∀ j < 512 / fwidth 1, (tyOf 1).decode (lab.lane (fwidth 1) j 1) = .fin false 0 (-149) := by decide +kernel
    rw [hz j hj] at h
    simp [Val.toRat] at h
  · rw [show (tyOf 1).decode ((labV 0x3F800000 0 0).lane (fwidth 1) 0 1) = .fin false 0x800000 (-23) from by decide +kernel]
    norm_num [Val.toRat]

/-- lab3 with regions that grant nothing. -/
def labShut (x y z : Word) : State :=
  (lab3 x y z).modSlot 0 fun t => { t with sys := { t.sys with prgn := SlotSys.reset.prgn } }

theorem witness_BlockInstructions :
    ((lab3 0x1000 0x2000 0x3000).ownAddr ((lab3 0x1000 0x2000 0x3000).rs 1) ∧
      (lab3 0x1000 0x2000 0x3000).ownAddr ((lab3 0x1000 0x2000 0x3000).rs 2) ∧
      (lab3 0x1000 0x2000 0x3000).ownAddr ((lab3 0x1000 0x2000 0x3000).rs 3) ∧
      ∀ r ∈ ([1, 2, 3] : List SReg), fitsBlock ((lab3 0x1000 0x2000 0x3000).rs r) 392 ∧
        (lab3 0x1000 0x2000 0x3000).me.permits [3, 4] (((lab3 0x1000 0x2000 0x3000).rs r).toNat % 2 ^ 17) 392 = true) ∧
    (lab.me.permits [3, 4] 0x1000 264 = true ∧ lab.me.permits [3] 0x1000 8 = true ∧ lab.me.permits [4] 0x1000 8 = true ∧
      lab.me.permits [3] 0x1008 64 = true ∧ lab.me.permits [4] 0x1008 (12 * 8) = true) ∧
    ¬ (lab3 0x3C000000000 0 0).ownAddr ((lab3 0x3C000000000 0 0).rs 1) ∧
    ((lab3 0x1004 0 0).ownAddr ((lab3 0x1004 0 0).rs 1) ∧ ¬ fitsBlock ((lab3 0x1004 0 0).rs 1) 264) ∧
    ¬ fitsBlock ((lab3 0x1FF00 0 0).rs 1) 264 ∧
    ((labShut 0x1000 0 0).ownAddr ((labShut 0x1000 0 0).rs 1) ∧ (labShut 0x1000 0 0).me.permits [3, 4] 0x1000 264 = false ∧
      (labShut 0x1000 0 0).me.permits [3] 0x1000 8 = false ∧ (labShut 0x1000 0 0).me.permits [4] 0x1000 8 = false) :=
  ⟨⟨⟨0, 0x1000, by decide⟩, ⟨0, 0x2000, by decide⟩, ⟨0, 0x3000, by decide⟩, by unfold fitsBlock; decide +kernel⟩, by decide +kernel,
    (by rintro ⟨_, _, h⟩; cases h), ⟨⟨0, 0x1004, by decide⟩, by unfold fitsBlock; decide⟩,
    by unfold fitsBlock; decide, ⟨0, 0x1000, by decide⟩, by decide +kernel⟩

/-- An accumulator with one contribution, and one of 1.0 in its element 0. -/
def aGab (x : Int) : Gab :=
  { nan := false, pinf := false, ninf := false, ovf := false, lsx := 0, bexp := 0, count := 1,
    m := (List.replicate 64 0).set 0 x }

theorem witness_BlockInstructions_numbers :
    (0 < (aGab 0).count ∧ (aGab 0).count < 2 ^ 32 ∧ (aGab 0).m.length = 64 ∧ -512 ≤ (aGab 0).bexp ∧ (aGab 0).bexp ≤ 511 ∧
      (fmtF32.decode 0x3F800000).isFin = true ∧ (∀ k, -(2 ^ 23) ≤ (aGab 0).m.getD k 0 ∧ (aGab 0).m.getD k 0 < 2 ^ 23) ∧
      ((aGab 0).add 0 0x3F800000 0).2 = 0) ∧
    ((aGab 4).count ≠ 0 ∧ (aGab 4).nan = false ∧ (aGab 4).pinf = false ∧ (aGab 4).ninf = false ∧ (aGab 4).ovf = false ∧
      (aGab 4).m.getD 0 0 ≠ 0) ∧
    ((fmtF32.decode 0x3F800000).isFin = true ∧ |(fmtF32.decode 0x3F800000).toRat| < 2 ^ ((0 : Int) + 1)) ∧
    ((List.replicate 264 (0 : Byte)).length = abfSize false ∧ (List.replicate 392 (0 : Byte)).length = abfSize true) := by
  refine ⟨⟨by decide, by decide, by decide, by decide, by decide, by decide, fun k => ?_, by decide⟩, by decide, ⟨by decide, ?_⟩,
    by decide +kernel⟩
  · rcases Nat.lt_or_ge k 64 with h | h
    · exact (by decide +kernel : ∀ k < 64, -(2 ^ 23) ≤ (aGab 0).m.getD k 0 ∧ (aGab 0).m.getD k 0 < 2 ^ 23) k h
    · rw [List.getD_eq_default _ _ (by simpa [aGab] using h)]
      decide
  · rw [show fmtF32.decode 0x3F800000 = .fin false 0x800000 (-23) from by decide]
    norm_num [Val.toRat]

/-- lab with an address in s1, or its page migrating, or the regions of the core beside it open. -/
def labMig : State := (lab3 0x200040 0 0).poke 0x101100 0x4000034F
def labFar (a : Word) : State :=
  (lab3 a 0 0).modSlot 4 fun t => { Slot.placed t with sys := { t.sys with prgn := t.sys.prgn.set 0 0xFFE00079 } }

/-- lab3 whose partition may name device 1; whose column 0 is lost, or has no place. -/
def labDev (a : Word) : State := (lab3 a 0 0).modPart 0 fun p => { p with devmap := [0x800000] }
def labLost (a : Word) : State := { lab3 a 0 0 with lost := [0] }
def labGone (a : Word) : State := { lab3 a 0 0 with mc := { Mc.reset with unplaced := [0] } }

/-- An HBM address on device 1, and one in the memory of column 0. -/
def dev1 : Word := 0x40000200000
def col0 : Word := 0x20000000040

/-- The address of a byte of core 1's scratchpad. -/
def far1 : Word := 0x20002100000

/-- A log entry of one byte in a state. -/
def ent (seq : Nat) (st : EntryState) : Entry :=
  { seq := seq, va := 0x200040, cells := [(0x200040, 7)], homes := [0x200040], state := st, pan := 0, raw := false,
    bad := false, trapDue := true, forced := false, awaited := [], loose := [], removed := false, pages := [], group := some 0, ord := 0 }

/-- lab with log entries. -/
def labLog (es : List Entry) (n : Nat) : State :=
  labT fun t => { t with regs := Regs.three (word n) 0 0, log := { seq := n, entries := es, pan := 0, fill := 16 } }

theorem witness_LocalLoadsAndStores :
    ((lab3 0x1FFF8 0 0).localAt (effAddr ((lab3 0x1FFF8 0 0).rs 1) 0) 0 0x1FFF8 ∧
      (effAddr ((lab3 0x1FFF8 0 0).rs 1) 0).toNat % 8 = 0 ∧ lab.me.permits [3] 0x1FFF8 8 ∧ lab.me.permits [4] 0x1FFF8 8) ∧
    (lab3 0x3C000000000 0 0).myTarget (effAddr ((lab3 0x3C000000000 0 0).rs 1) 0) = none ∧
    ((lab3 4 0 0).localAt (effAddr ((lab3 4 0 0).rs 1) 0) 0 4 ∧ (effAddr ((lab3 4 0 0).rs 1) 0).toNat % 8 ≠ 0) ∧
    ((labT fun t => { t with sys := SlotSys.reset }).me.permits [3] 0 8 = false ∧
      (labT fun t => { t with sys := SlotSys.reset }).me.permits [4] 0 8 = false) ∧ Memory.wf lab.mem = true :=
  ⟨⟨rfl, by decide⟩, by decide, ⟨rfl, by decide⟩, by decide, by decide⟩

theorem witness_LocalLoadsAndStores_edges :
    lab.contested = false ∧ (labDev dev1).myTarget dev1 = some (.device 1) ∧
    ((labGone 0x40).localAt 0x40 0 0x40 ∧ (labGone 0x40).isLost ((labGone 0x40).ownKey 0x40) = true ∧
      (lab3 0x40 0 0).isLost ((lab3 0x40 0 0).ownKey 0x40) = false) := ⟨by decide, by decide, rfl, by decide⟩

theorem witness_SharedLoadsAndStores_lost :
    (labLost col0).myTarget col0 = some (.col 0 0x40) ∧ (labLost col0).isLocal (.col 0 0x40) = false ∧ col0.toNat % 8 = 0 ∧
    ∃ key, (labLost col0).answer col0 (.col 0 0x40) 8 .load = .lost key := ⟨by decide, by decide, by decide, _, rfl⟩

theorem witness_SharedLoadsAndStores :
    ((lab3 0x200040 0 0).myTarget ((lab3 0x200040 0 0).rs 1) = some .hbm ∧ (lab3 0x200040 0 0).isLocal .hbm = false ∧
      (∃ key fmt rnd w, (lab3 0x200040 0 0).answer 0x200040 .hbm 8 .load = .at key fmt rnd w) ∧
      (∀ x, Target.hbm ≠ .device x) ∧ (lab3 0x200040 0 0).me.log.entries = [] ∧ (lab3 0x200040 0 0).myCore.view = [] ∧
      ∀ i < 8, (lab3 0x200040 0 0).isLost (0x200040 + i) = false) ∧
    (∃ code detail, (lab3 0x210000 0 0).answer 0x210000 .hbm 8 .load = .trap code detail) ∧
    labMig.answer 0x200040 .hbm 8 .load = .stall ∧
    ∃ x xs, (labT fun t => { t with log := { seq := 1, entries := [ent 1 .appended], pan := 15, fill := 4096 } }).me.log.entries =
      x :: xs ∧ x.pan + 15 ≤ 15 ∧ 4080 < 4096 :=
  ⟨⟨by decide, by decide, ⟨_, _, _, _, rfl⟩, by simp, by decide, by decide, by decide⟩, ⟨_, _, rfl⟩, by decide,
    ⟨_, _, rfl, by decide, by decide⟩⟩

/-- A test on the walk that ends well. -/
def walked : Walk → Bool
  | .ok _ _ _ _ _ => true
  | _ => false

theorem walked_of {w : Walk} (h : walked w = true) : ∃ key leaf lk lv ns, w = .ok key leaf lk lv ns := by
  cases w <;> first | exact ⟨_, _, _, _, _, rfl⟩ | cases h

/-- A check that is met, by evaluation. -/
theorem ok_of {ε α : Type} (c : Except ε α) (p : α → Bool) (h : (match c with | .ok x => p x | .error _ => false) = true) :
    ∃ x, c = .ok x ∧ p x = true := by
  cases c with
  | ok x => exact ⟨x, rfl, h⟩
  | error e => cases h

theorem witness_VectorLoads :
    (∃ es, (lab3 0x40 8 0).checkElems 3 64 .load (wholeElems 0x40 3 0) = .ok es ∧ (lab3 0x40 8 0).allLocal es = true) ∧
    (∃ es, (lab3 0x40 8 0).checkElems 3 8 .load (strideElems 0x40 8 true) = .ok es ∧ (lab3 0x40 8 0).allLocal es = true) ∧
    (∃ es, (lab3 0x40 8 0).checkElems 3 4 .load (gatherElems 0x40 0 false) = .ok es ∧ (lab3 0x40 8 0).allLocal es = true) ∧
    (∃ es as, lab.checkElems 3 64 .load (wholeElems 0x200040 3 0) = .ok es ∧ lab.allLocal es = false ∧
      lab.askElems 3 64 .load es = .all as) ∧
    ∃ code detail va, lab.checkElems 3 64 .load (wholeElems 0x8 3 0) = .error (code, detail, va) :=
  ⟨⟨_, rfl, by decide⟩, ⟨_, rfl, by decide⟩, ok_of _ _ (by decide +kernel), ⟨_, _, rfl, by decide, rfl⟩, ⟨_, _, _, rfl⟩⟩

theorem witness_VectorLoads_typed :
    (∃ es, lab.checkElems 0 (classSize 0) .load (wholeElems 0x20040 0 0) = .ok es ∧
      (lab.allLocal es && (es[0]?.map (·.tgt)) == some (.spad (coreOf lab.cur) 1 0x40)) = true) ∧ (0 : BitVec 2) ≠ 3 ∧ lcolOf lab.cur ∉ lab.mc.unplaced ∧
    (∃ es va, labMig.checkElems 3 64 .load (wholeElems 0x200040 3 0) = .ok es ∧ labMig.askElems 3 64 .load es = .stall va) ∧
    ∃ es code detail va, lab.checkElems 3 64 .load (wholeElems 0x210000 3 0) = .ok es ∧
      (∀ e ∈ es, e.tgt = .hbm) ∧ lab.askElems 3 64 .load es = .trap code detail va :=
  ⟨ok_of _ _ (by decide +kernel), by decide, by decide, ⟨_, _, rfl, rfl⟩, _, _, _, _, rfl, by decide, rfl⟩

theorem witness_VectorStores :
    (∃ es, lab.checkElems 3 64 .store (wholeElems 0x40 3 0) = .ok es ∧ lab.allLocal es = true) ∧
    (∃ es, lab.checkElems 3 8 .store (strideElems 0x40 8 true) = .ok es ∧ lab.allLocal es = true) ∧
    (∃ es, lab.checkElems 3 4 .store (gatherElems 0x40 0 false) = .ok es ∧ lab.allLocal es = true) ∧
    (∃ code detail va, lab.checkElems 3 64 .store (wholeElems 0x8 3 0) = .error (code, detail, va)) ∧
    (Memory.wf lab.mem = true ∧ lab.localAt (effAddr 0x1FFC0 0) 0 0x1FFC0 ∧ 0x1FFC0 % 64 = 0 ∧
      (effAddr 0x1FFC0 0).toNat % 64 = 0 ∧ lab.me.permits [4] 0x1FFC0 64) :=
  ⟨⟨_, rfl, by decide⟩, ⟨_, rfl, by decide⟩, ok_of _ _ (by decide +kernel), ⟨_, _, _, rfl⟩, by decide, rfl, by decide, by decide, by decide⟩

theorem witness_VectorStores_shared :
    (∃ es, lab.checkElems 3 64 .store (wholeElems 0x200040 3 0) = .ok es ∧ (∀ e ∈ es, lab.isLocal e.tgt = false)) ∧
    (lab.me.log.entries = [] ∧ lab.myCore.view = []) ∧
    (∃ es va, labMig.checkElems 0 (classSize 0) .store (wholeElems 0x200040 0 0) = .ok es ∧
      labMig.askElems 0 (classSize 0) .query es = .stall va) ∧
    (∃ es code detail va, lab.checkElems 0 (classSize 0) .store (wholeElems 0x210000 0 0) = .ok es ∧
      lab.askElems 0 (classSize 0) .query es = .trap code detail va) ∧
    ∀ i < 64, lab.isLost (lab.ownKey (0x1FFC0 + i)) = false :=
  ⟨⟨_, rfl, by decide⟩, by decide, ⟨_, _, rfl, rfl⟩, ⟨_, _, _, _, rfl, rfl⟩, by decide⟩

theorem witness_LocalAtomics :
    (Memory.wf (lab3 0x40 0 0).mem = true ∧ (lab3 0x40 0 0).localAt ((lab3 0x40 0 0).rs 1) 0 0x40 ∧
      ((lab3 0x40 0 0).rs 1).toNat % 8 = 0 ∧ (lab3 0x40 0 0).me.permits [3, 4] 0x40 8) ∧
    ((lab3 0x42 0 0).localAt ((lab3 0x42 0 0).rs 1) 0 0x42 ∧ ((lab3 0x42 0 0).rs 1).toNat % 4 ≠ 0) ∧
    (labT fun t => { t with sys := SlotSys.reset }).me.permits [3, 4] 0x40 4 = false :=
  ⟨⟨by decide, rfl, by decide, by decide⟩, ⟨rfl, by decide⟩, by decide⟩

theorem witness_LocalAtomics_shared :
    (∀ i < 8, (lab3 0x40 0 0).isLost ((lab3 0x40 0 0).ownKey (0x40 + i)) = false) ∧
    (labGone 0x40).isLost ((labGone 0x40).ownKey 0x40) = true ∧ (lab3 0x3C000000000 0 0).myTarget 0x3C000000000 = none ∧
    ((lab3 0x200040 0 0).myTarget 0x200040 = some .hbm ∧ (lab3 0x200040 0 0).isLocal .hbm = false ∧
      (∃ key fmt rnd w, (lab3 0x200040 0 0).answer 0x200040 .hbm 8 .atomic = .at key fmt rnd w) ∧
      (lab3 0x200040 0 0).me.log.entries = [] ∧ (lab3 0x200040 0 0).myCore.view = [] ∧
      ∀ i < 8, (lab3 0x200040 0 0).isLost (0x200040 + i) = false) ∧
    (∃ key, (labLost col0).answer col0 (.col 0 0x40) 8 .atomic = .lost key) ∧
    (∃ code detail, (lab3 0x210000 0 0).answer 0x210000 .hbm 8 .atomic = .trap code detail) ∧
    labMig.answer 0x200040 .hbm 8 .atomic = .stall :=
  ⟨by decide, by decide, by decide, ⟨by decide, by decide, ⟨_, _, _, _, rfl⟩, by decide, by decide, by decide⟩, ⟨_, rfl⟩,
    ⟨_, _, rfl⟩, by decide⟩

/-- labMig with log entries, their page migrating, and a view. -/
def labWait (es : List Entry) (vs : List ViewLine) (x y : Word) : State :=
  ((labMig.modSlot 0 fun t => { t with regs := Regs.three x y 0, log := { seq := 1, entries := es, pan := 0, fill := 16 } }).modSlot 4
    fun t => { t with pub := 1 }).modCore 0 fun c => { c with view := vs }

theorem witness_ReleasesPublish :
    ((∀ e ∈ (labLog [ent 1 .accepted] 1).me.log.entries, e.unanswered = false ∧ e.isRefused = false) ∧
      reached (labLog [ent 1 .accepted] 1).me.log.seq lab.me.pub = true) ∧
    ((labLog [ent 1 .accepted, ent 2 (.refused 1), ent 3 .crystallised] 3).me.log.entries =
        [ent 1 .accepted] ++ ent 2 (.refused 1) :: [ent 3 .crystallised] ∧
      (∀ x ∈ [ent 1 .accepted] ++ [ent 3 .crystallised], x.unanswered = false) ∧
      (∀ x ∈ [ent 1 .accepted], x.isRefused = false) ∧ reached (2 - 1) 0 = true) ∧
    ((labFar far1).myTarget ((labFar far1).rs 1) = some (.spad 1 0 0) ∧ 1 ≠ coreOf (labFar far1).cur ∧
      ((labFar far1).rs 1).toNat % 8 = 0 ∧ (labFar far1).permitsOthers 1 [5, 6] 0 8 = true ∧
      (labFar far1).me.log.entries = [] ∧ (labFar far1).myCore.view = [] ∧ Memory.wf (labFar far1).mem = true ∧
      reached (labFar far1).me.log.seq (labFar far1).me.pub = true) ∧
    ((labFar (far1 + 1)).myTarget ((labFar (far1 + 1)).rs 1) = some (.spad 1 0 1) ∧
      ((labFar (far1 + 1)).rs 1).toNat % 8 ≠ 0) := by decide

theorem witness_ReleasesPublish_waits :
    ((labWait [ent 1 .sent] [] 0 0).me.log.entries = [] ++ ent 1 .sent :: [] ∧ (ent 1 .sent).unanswered = true ∧
      (labWait [ent 1 .sent] [] 0 0).answerAll 0 (ent 1 .sent).raw (ent 1 .sent).cells = none) ∧
    (∃ keys, (labLog [ent 1 .sent] 1).answerAll 0 (ent 1 .sent).raw (ent 1 .sent).cells = some (.ok keys)) ∧
    ((labFar far1).flagAt ((labFar far1).rs 1) .atomic = .ok (.spad 1 0 0) ∧
      (∃ key fmt rnd w, (labFar far1).answer ((labFar far1).rs 1) (.spad 1 0 0) 8 .atomic = .at key fmt rnd w) ∧
      (labFar far1).isLost (spadKey 1 0) = false) ∧
    (let s := labWait [ent 1 .sent] [] 0x40 0;
      s.flagAt (s.rs 1) .atomic = .ok (.spad 0 0 0x40) ∧
        (∃ key fmt rnd w, s.answer (s.rs 1) (.spad 0 0 0x40) 8 .atomic = .at key fmt rnd w) ∧
        s.me.log.entries = [ent 1 .sent] ∧ s.answerAll s.cur (ent 1 .sent).raw (ent 1 .sent).cells = none) ∧
    ((lab3 0x3C000000000 0 0).myTarget 0x3C000000000 = none ∧ (labDev dev1).myTarget dev1 = some (.device 1)) ∧
    ((lab3 0x210000 0 0).flagAt 0x210000 .atomic = .ok .hbm ∧
      ∃ code detail, (lab3 0x210000 0 0).answer 0x210000 .hbm 8 .atomic = .trap code detail) ∧
    (labMig.flagAt 0x200040 .atomic = .ok .hbm ∧ labMig.answer 0x200040 .hbm 8 .atomic = .stall) :=
  ⟨by decide, ⟨_, rfl⟩, ⟨rfl, ⟨_, _, _, _, rfl⟩, by decide⟩, ⟨rfl, ⟨_, _, _, _, rfl⟩, by decide, by decide⟩, by decide,
    ⟨rfl, _, _, rfl⟩, rfl, by decide⟩

/-- labFar with a flag word of core 1's scratchpad that names the issuer's own sequence 5. -/
def labFlag : State := (labFar far1).poke (spadKey 1 0) 5

theorem witness_AcquiresAndViews :
    (lab.curPart.hasCol (lcolOf (645119 + 32)) = false ∧ lab.curPart.hasCol (lcolOf 645119) = true) ∧
    (lab.curPart.hasCol (lcolOf 0) = true ∧ ((lab3 0 0 0).rs 1).toNat % 2 ^ 20 = lab.cur) ∧
    (((lab3 4 0 0).rs 1).toNat % 2 ^ 20 ≠ lab.cur ∧ lab.lost.contains (lcolOf 4) = false ∧
      reached (lab.slot 4).pub 0 = true ∧ reached (lab.slot 4).pub 1 = false) ∧
    ((labFar far1).me.redo = none ∧ labFlag.me.redo = none ∧
      (labFar far1).myTarget ((labFar far1).rs 1) = some (.spad 1 0 0) ∧ (labFar far1).permitsOthers 1 [5] 0 8 = true ∧
      (labFar far1).mem.num (spadKey 1 0) 8 = 0) ∧
    (labFlag.mem.num (spadKey 1 0) 8 = 5 ∧ reached (5 % 2 ^ 44) 5 = true ∧ 5 / 2 ^ 44 = labFlag.cur ∧
      labFlag.curPart.hasCol (lcolOf labFlag.cur) = true) ∧
    ((lab3 0 0 0).rs 2 = 0 ∧ (lab3 0x200000 0x40 0).rs 2 ≠ 0 ∧
      ((lab3 0x200000 0x40 0).rs 1).toNat % 2 ^ 42 + ((lab3 0x200000 0x40 0).rs 2).toNat ≤ 2 ^ 42) := by decide

/-- A view line of slot 0 over the line of ent, which records its own writer. -/
def aLine : ViewLine := { slot := 0, line := 0x8001, vline := 0x200040, bytes := [(0, 7)], writers := [(0, 1)], bad := false }

/-- labFar with a flag word that names sequence q of the slot x. -/
def labNames (x q : Nat) : State := ((labFar far1).modSlot 4 fun t => { t with pub := 1 }).poke (spadKey 1 0) (x * 2 ^ 44 + q)

theorem witness_AcquiresAndViews_lines :
    ((lab3 4 0 0).curPart.hasCol (lcolOf 4) = true ∧ ((lab3 4 0 0).replay 0 4 0).linesWait 0 = false) ∧
    (let s := labWait [{ ent 1 .sent with awaited := [0] }] [] 4 0;
      (s.rs 1).toNat % 2 ^ 20 = 4 ∧ s.curPart.hasCol (lcolOf 4) = true ∧ reached (s.slot 4).pub 0 = true ∧
        (s.replay 0 4 0).linesWait 0 = true) ∧
    (labLost 4).lost.contains (lcolOf 4) = true ∧
    (let s := labWait [ent 1 .sent] [aLine] 0x200040 0x40;
      let u := s.dropLines 0 fun l => l.slot == slotNo s.cur && true;
      (s.myCore.view.filter fun l => l.slot == slotNo s.cur) = [aLine] ∧ u.dropStalls aLine = true ∧
        aLine.meets 0x200040 0x40 = true) ∧
    (let s := (labLog [ent 1 .accepted] 1).modCore 0 fun c => { c with view := [aLine] };
      let u := s.dropLines 0 fun l => l.slot == slotNo s.cur && true;
      s.myCore.view = [aLine] ∧ s.dropForces aLine = true ∧ u.dropStalls aLine = false) ∧
    lab.dropForces { aLine with writers := [] } = false ∧
    (lcolOf 0xFFFFF = 32767 ∧ (labNames 0xFFFFF 1).mem.num (spadKey 1 0) 8 / 2 ^ 44 = 0xFFFFF ∧
      (labNames 0xFFFFF 1).curPart.hasCol (lcolOf 0xFFFFF) = false) ∧
    (let s := labNames 4 1;
      s.mem.num (spadKey 1 0) 8 = 4 * 2 ^ 44 + 1 ∧ reached 1 0 = true ∧ reached (s.slot 4).pub 1 = true ∧
        ((s.consume (spadKey 1 0) 8).replay s.cur 4 1).linesWait 0 = false) ∧
    ((labNames 4 2).mem.num (spadKey 1 0) 8 = 4 * 2 ^ 44 + 2 ∧ reached ((labNames 4 2).slot 4).pub 2 = false) := by decide

theorem witness_FencesWaitsAndHints :
    (((lab3 5 0 0).rs 1).toNat / 2 ^ 62 = 0 ∧ ((lab3 0xC000000000000000 0 0).rs 1).toNat / 2 ^ 62 = 3) ∧
    lab.me.log.entries = [] ∧ (lab3 0x3C000000000 0 0).myTarget (effAddr ((lab3 0x3C000000000 0 0).rs 1) 0) = none ∧
    (lab3 0x40 0 0).myTarget (effAddr ((lab3 0x40 0 0).rs 1) 0) = some (.spad 0 0 0x40) := by decide

/-- A SYSTEM fence's token with 1 access before it. -/
def aTok : Word := 0x8000000000000001

/-- A log entry of an access before aTok, in labLog, its token in s1. -/
def labTok (st : EntryState) : State := (labLog [ent 1 st] 1).modSlot 0 fun t => { t with regs := Regs.three aTok 0 0, ordinal := 1 }

theorem witness_FencesWaitsAndHints_waits :
    (let s := (labWait [ent 1 .sent] [] aTok 0).modSlot 0 fun t => { t with ordinal := 1 };
      s.me.tokenAtOnce (s.rs 1) = false ∧ s.me.log.entries = [ent 1 .sent] ∧ (ent 1 .sent).before (s.rs 1) = true ∧
        (ent 1 .sent).unanswered = true ∧ s.answerAll s.cur (ent 1 .sent).raw (ent 1 .sent).cells = none ∧
        ∃ e ∈ (s.crystWhere s.cur fun e => e.before (s.rs 1)).me.log.entries, e.before (s.rs 1) = true ∧ e.settled = false) ∧
    ((ent 1 (.refused 1)).before aTok = true ∧ (labTok (.refused 1)).me.tokenAtOnce aTok = false) ∧
    (let s := labTok .accepted;
      s.me.tokenAtOnce (s.rs 1) = false ∧ s.me.log.entries = [ent 1 .accepted] ∧ (ent 1 .accepted).homes = [0x200040] ∧
        (ent 1 .accepted).cells.map (·.2) = [7] ∧ s.isLost 0x200040 = false ∧ s.heldHome 0x200040 = false ∧
        Memory.wf s.mem = true ∧
        ∀ e ∈ (s.crystWhere s.cur fun e => e.before (s.rs 1)).me.log.entries, e.before (s.rs 1) = true → e.settled = true) ∧
    ((labDev dev1).myTarget dev1 = some (.device 1) ∧ (lab3 0x200040 0 0).myTarget 0x200040 = some .hbm ∧
      (∃ key leaf lk lv ns, lab.translate lab.myPart lab.curPart 0x200040 .hint = .ok key leaf lk lv ns) ∧
      ∃ level node, lab.translate lab.myPart lab.curPart 0x210000 .hint = .page level node) := by
  refine ⟨by decide +kernel, by decide +kernel, by decide +kernel, by decide +kernel, by decide +kernel, ?_, ?_⟩
  · exact walked_of (by decide +kernel)
  · exact ⟨_, _, rfl⟩

/-- labLog in a handler. -/
def labLogSup (es : List Entry) (n : Nat) : State := (labLog es n).modSlot 0 fun t => { t with trap := { t.trap with status := 1 } }

theorem witness_LogQueries :
    lab.me.log.entries.find? (fun e => e.seq == 1) = none ∧
    (∀ st ∈ [EntryState.appended, .sent, .accepted, .crystallised, .refused 1, .voided],
      (labLog [ent 1 st] 1).me.log.entries.find? (fun e => e.seq == ((labLog [ent 1 st] 1).rs 1).toNat % 2 ^ 44) =
        some (ent 1 st) ∧ (ent 1 st).state = st) ∧
    (labLogSup [ent 1 (.refused 1)] 1).me.sup = true ∧ (ent 1 .sent).isRefused = false ∧
    (labLogSup [] 0).me.log.entries.find? (fun e => e.seq == 1) = none ∧ reached (labLogSup [] 0).me.log.seq 1 = false := by
  decide

theorem witness_LogQueries_reclaim :
    (let s := labWait [ent 1 .sent] [] 2 0;
      (s.rs 1).toNat % 2 ^ 44 = 2 ∧ s.me.log.entries = [ent 1 .sent] ∧ (ent 1 .sent).seq ≠ 2 ∧ reached 2 (ent 1 .sent).seq = true ∧
        s.answerAll s.cur (ent 1 .sent).raw (ent 1 .sent).cells = none) ∧
    (let s := (labLog [ent 1 .accepted] 1).modSlot 0 fun t => { t with regs := Regs.three 2 0 0 };
      (s.rs 1).toNat % 2 ^ 44 = 2 ∧ s.me.log.entries = [ent 1 .accepted] ∧ (ent 1 .accepted).homes = [0x200040] ∧
        s.isLost 0x200040 = false ∧ s.heldHome 0x200040 = false ∧ Memory.wf s.mem = true) ∧
    ∀ e ∈ (labLog [ent 1 .accepted] 1).me.log.entries, e.seq = 1 ∨ reached 1 e.seq = false := by decide

/-- labLog at a vector, its refused entry due. -/
def labRefused : State := (labLog [ent 1 (.refused 1)] 1).modPart 0 fun p => { p with trapvec := 0x300001 }

theorem witness_HomeEvents :
    (((labLog [ent 1 .sent] 1).slot 0).log.entries.find? (fun e => e.seq == 1) = some (ent 1 .sent) ∧
      (ent 1 .sent).state = .sent) ∧
    (((labLog [ent 1 .accepted] 1).slot 0).log.entries = [ent 1 .accepted] ∧ (ent 1 .accepted).homes = [0x200040] ∧
      (ent 1 .accepted).cells.map (·.2) = [7] ∧ (labLog [ent 1 .accepted] 1).isLost 0x200040 = false ∧
      (labLog [ent 1 .accepted] 1).heldHome 0x200040 = false ∧ Memory.wf (labLog [ent 1 .accepted] 1).mem = true) ∧
    ((labT fun t => { t with status := .asleep, cond := .flagWord 8 1 }).slot 0).cond = .flagWord 8 1 ∧
    ((labT fun t => { t with status := .asleep, cond := .migration 8 }).slot 0).cond = .migration 8 ∧
    ((labRefused.slot 0).log.entries.find? (fun e => e.isRefused && e.trapDue) = some (ent 1 (.refused 1)) ∧
      (labRefused.slot 0).status = .ready ∧ (labRefused.slot 0).redo = none ∧ (labRefused.slot 0).sup = false ∧
      (labRefused.core (coreOf 0)).phase = none ∧ (labRefused.slot 0).flight = []) ∧
    (labRefused.gangless 0 ∧ ∃ p, labRefused.partAt (lcolOf 0) = some (0, p) ∧ labRefused.part? 0 = some p ∧
      p.trapvec.getLsbD 0 = true) ∧ ∀ k, coreOf k = coreOf 0 → (labRefused.slot k).flight = [] := by
  refine ⟨by decide, by decide, by decide, by decide, by decide, ⟨rfl, _, rfl, rfl, by decide⟩, fun k h => ?_⟩
  have hk : k < 4 := by simp only [coreOf] at h; omega
  exact (by decide : ∀ k < 4, (labRefused.slot k).flight = []) k hk

/-- lab asleep on a flag word, which holds v. -/
def labOnFlag (v : Nat) : State := (labT fun t => { t with status := .asleep, cond := .flagWord (spadKey 1 0) 1 }).poke (spadKey 1 0) v

theorem witness_HomeEvents_answers :
    (let s := labWait [ent 1 .sent] [] 0 0; (s.slot 0).log.entries.find? (fun e => e.seq == 1) = some (ent 1 .sent) ∧
      s.answerAll 0 (ent 1 .sent).raw (ent 1 .sent).cells = none) ∧
    (∃ r, (labLog [{ ent 1 .sent with cells := [(0x210000, 7)] }] 1).answerAll 0 false [(0x210000, 7)] = some (.error r)) ∧
    (∃ key, (labLog [ent 1 .sent] 1).answerAll 0 false [(0x200040, 7)] = some (.ok [key]) ∧
      (labLog [ent 1 .sent] 1).isLost key = false ∧ (labLog [ent 1 .sent] 1).heldHome key = false) ∧
    (({ ent 1 .sent with forced := true } : Entry).forced = true ∧ (ent 1 .sent).forced = false ∧
      ({ ent 1 .accepted with bad := true } : Entry).bad = true) ∧
    ((labOnFlag 0).mem.num (spadKey 1 0) 8 = 0 ∧ (labOnFlag 5).mem.num (spadKey 1 0) 8 = 5 ∧
      reached ((BitVec.ofNat 64 5).toNat % 2 ^ 44) 1 = true ∧ (labOnFlag 5).outNow 0 = false) :=
  ⟨by decide, ⟨_, rfl⟩, ⟨0x200040, by decide⟩, by decide, by decide⟩

/-- A message of 32 bytes from slot 0 to the task in slot 4, and a state in which it is under way. -/
def msgTo (dst : Word) (n : Nat) : Msg :=
  { src := 0, srcEp := 0x400000, dst := dst, msgno := 1, payload := List.replicate n 5, stubs := 0, hops := 1, vc1 := false,
    born := 0 }
def labMsg (ms : List Msg) : State :=
  { lab.modSlot 4 fun t => { Slot.placed t with sys := { t.sys with coord := 0x1000000000001, inbox := 1 } } with msgs := ms }

theorem witness_MessagesAndDelivery_syllables :
    ((∀ f ∈ [(19, 6), (13, 6), (8, 5), (3, 5), (0, 3)], (0 : Word).toNat / 2 ^ f.1 % 2 ^ f.2 ≤
        lab.me.sys.tgext.toNat / 2 ^ f.1 % 2 ^ f.2) ∧
      ¬ ((1 : Word).toNat / 2 ^ 0 % 2 ^ 3 ≤ lab.me.sys.tgext.toNat / 2 ^ 0 % 2 ^ 3)) ∧
    (lab.epAllowed lab.me 0x4000400000 = false ∧ lab.epAllowed lab.me 0x400000 = true) ∧
    ((lab3 0x1FF00 0x400000 0).localAt ((lab3 0x1FF00 0x400000 0).rs 1) 0 0x1FF00 ∧
      ((lab3 0x1FF00 0x400000 0).rs 1).toNat % 32 = 0 ∧ 0x1FF00 + 256 ≤ 2 ^ 17 ∧ lab.me.permits [3] 0x1FF00 256 = true) ∧
    (16 ≤ ((labMsg (List.replicate 16 (msgTo 0 32))).msgs.filter fun m => coreOf m.src == coreOf lab.cur).length ∧
      (lab.msgs.filter fun m => coreOf m.src == coreOf lab.cur).length < 16) ∧
    ((labT fun t => { t with sys := SlotSys.reset }).me.inboxOn = false ∧ lab.me.inboxOn = true ∧ lab.me.ringHeld = 0 ∧
      (labT fun t => { t with sys := { t.sys with inbox := 1 + 32 * 2 ^ 47 } }).me.ringHeld ≠ 0) ∧
    ∃ p, lab.part? (0 : BitVec 4).toNat = some p :=
  ⟨by decide, by decide, ⟨rfl, by decide⟩, by decide, by decide, _, rfl⟩

theorem witness_MessagesAndDelivery_events :
    ((labMsg [msgTo 0x400001 32]).msgAt 0 0 = some (msgTo 0x400001 32) ∧
      Memory.wf (labMsg [msgTo 0x400001 32]).mem = true ∧
      (labMsg [msgTo 0x400001 32]).foremost (msgTo 0x400001 32) = true ∧
      (labMsg [msgTo 0x400001 32]).fate (msgTo 0x400001 32) = .slot 4 ∧ ((labMsg []).slot 4).spilled = [] ∧
      (labMsg []).isOut 4 = false ∧ 32 + 32 ≤ ((labMsg []).slot 4).ringSize - ((labMsg []).slot 4).ringHeld) ∧
    ((labMsg [msgTo 0x400001 64, msgTo 0x400001 32]).msgAt 0 1 = some (msgTo 0x400001 32) ∧
      (labMsg [msgTo 0x400001 64, msgTo 0x400001 32]).foremost (msgTo 0x400001 32) = false) ∧
    ((labMsg [msgTo 0 64]).fate (msgTo 0 64) = .launch ∧ (labMsg [msgTo 0 64]).foremost (msgTo 0 64) = true ∧
      ((labMsg [msgTo 0 64]).part? (epPart 0)).isSome) ∧
    ((labMsg [msgTo 0x800000 32]).fate (msgTo 0x800000 32) = .back 1 ∧
      (labMsg [msgTo 0x800000 32]).foremost (msgTo 0x800000 32) = true ∧ ((labMsg []).slot 0).status ≠ .free ∧
      ((labMsg []).slot 0).endpoint = 0x400000 ∧ ((labMsg []).slot 0).inboxOn = true ∧ ((labMsg []).slot 0).spilled = [] ∧
      (labMsg []).isOut 0 = false ∧ 32 ≤ ((labMsg []).slot 0).ringSize - ((labMsg []).slot 0).ringHeld ∧ 16 ≤ (msgTo 0x800000 32).payload.length) := by decide

/-- labWait whose ring holds a record of a copy over the line of aLine. -/
def labDeq (es : List Entry) : State :=
  (((((labWait es [aLine] 0 0).modSlot 0 fun t => { t with sys := { t.sys with inbox := 1 + 32 * 2 ^ 47 } }).poke (spadKey 0 0) 2).poke
    (spadKey 0 8) 0x40).poke (spadKey 0 0x10) 0x200040)

theorem witness_MessagesAndDelivery_more :
    (let s := labDeq [ent 1 .sent];
      let ls := s.myCore.view.filter fun l => l.slot == slotNo s.cur && s.overCopy 2 (s.ringBytes s.cur s.me.ringHead 32) l;
      let u := s.dropLines (coreOf s.cur) fun l => l.slot == slotNo s.cur && s.overCopy 2 (s.ringBytes s.cur s.me.ringHead 32) l;
      s.me.inboxOn = true ∧ s.me.ringHeld ≠ 0 ∧ (s.mem.read (s.ringKey s.cur s.me.ringHead)).toNat = 2 ∧ ls = [aLine] ∧
        u.dropStalls aLine = true) ∧
    (let s := labDeq [];
      let u := s.dropLines (coreOf s.cur) fun l => l.slot == slotNo s.cur && s.overCopy 2 (s.ringBytes s.cur s.me.ringHead 32) l;
      u.dropStalls aLine = false ∧ s.dropForces aLine = false) ∧
    ((labMsg [msgTo 0x40000400001 32]).fate (msgTo 0x40000400001 32) = .away ∧
      (labMsg [msgTo 0x40000400001 32]).foremost (msgTo 0x40000400001 32) = true) ∧
    (let s := (labMsg [msgTo 0x400001 32]).modSlot 4 fun t => { t with spilled := [{ bytes := [], work := none }] };
      s.fate (msgTo 0x400001 32) = .slot 4 ∧ s.foremost (msgTo 0x400001 32) = true ∧ s.lost.contains (lcolOf 4) = false ∧
        (s.slot 4).spilled ≠ []) ∧
    ∀ k c, (labMsg [msgTo 0x400001 32]).isLost ((labMsg [msgTo 0x400001 32]).ringKey k c) = false :=
  ⟨by decide, by decide, by decide, by decide, fun _ _ => kept rfl rfl _⟩

/-- A copy from one place of the own scratchpad to another. -/
def aCopy (done : List Nat) (orphan : Bool) : Copy :=
  { slot := 0, id := 1, dst := 0x80, src := 0x100, len := 32, tag := 0, chunked := false, accSrc := false, accDst := false,
    notify := 0, group := some 0, charged := true, done := done, posted := [], running := false, poison := false, notifyLost := false,
    resumed := false, orphan := orphan, due := 0, devmap := [], held := false }

/-- lab with a copy descriptor at 0x40. -/
def labDesc (dst src len : Nat) : State :=
  (((lab3 0x40 0 0).poke (spadKey 0 0x40) dst).poke (spadKey 0 0x48) src).poke (spadKey 0 0x50) len

/-- lab with copies in flight, ids up to 1 issued. -/
def labCopies (cs : List Copy) (x : Word) : State :=
  { labT fun t => { t with regs := Regs.three x 0 0, counters := { t.counters with copyId := 1 } } with copies := cs }

theorem witness_CopiesToHome_syllables :
    (labT fun t => { t with sys := SlotSys.reset }).me.inboxOn = false ∧
    ((labDesc 0x80 0x100 32).me.inboxOn = true ∧ (labDesc 0x80 0x100 32).localAt ((labDesc 0x80 0x100 32).rs 1) 0 0x40 ∧
      ((labDesc 0x80 0x100 32).rs 1).toNat % 32 = 0 ∧ (labDesc 0x80 0x100 32).me.permits [3] 0x40 32 = true) ∧
    (leNat ((List.range 4).map fun j => (labDesc 0x80 0x100 31).ownByte (0x40 + 16 + j)) = 31 ∧
      leNat ((List.range 4).map fun j => (labDesc 0x80 0x100 0x80000020).ownByte (0x40 + 16 + j)) = 2 ^ 31 + 32) ∧
    (leNat ((List.range 8).map fun j => (labDesc 0x80 0x101 32).ownByte (0x40 + 8 + j)) % 32 ≠ 0 ∧
      leNat ((List.range 8).map fun j => (labDesc 0x81 0x100 32).ownByte (0x40 + 0 + j)) % 32 ≠ 0) ∧
    (∃ c, (labDesc 0x80 0x100 32).checkCopy 0x40 ((labDesc 0x80 0x100 32).spadBytes 0x40 32) = .ok c ∧ (c.id == 1) = true) ∧
    (256 ≤ (List.replicate 256 (aCopy [] false)).length ∧
      ((labDesc 0x80 0x100 32).copies.filter fun x => coreOf x.slot == coreOf lab.cur).length < 256) ∧
    (((labCopies [] 2).rs 1).toNat % 2 ^ 32 = 2 ∧ 2 ^ 31 ≤ ((labCopies [] 2).me.counters.copyId + 2 ^ 32 - 2) % 2 ^ 32) ∧
    (¬ 2 ^ 31 ≤ ((labCopies [aCopy [] false] 1).me.counters.copyId + 2 ^ 32 - 1) % 2 ^ 32 ∧
      (labCopies [aCopy [] false] 1).copyOf 0 1 = some (aCopy [] false) ∧ (labCopies [] 1).copyOf 0 1 = none) :=
  ⟨by decide, ⟨by decide, rfl, by decide⟩, by decide, by decide, ok_of _ _ (by decide), by decide +kernel, by decide, by decide⟩

theorem witness_CopiesToHome_events :
    ((labCopies [aCopy [] false] 1).copyOf 0 1 = some (aCopy [] false) ∧
      (labCopies [aCopy [] false] 1).unitFree (aCopy [] false) = true ∧
      Memory.wf (labCopies [aCopy [] false] 1).mem = true ∧
      (aCopy [] false).source (labCopies [aCopy [] false] 1) 0 = .at (spadKey 0 0x100) none ∧
      (aCopy [] false).target (labCopies [aCopy [] false] 1) 0 = .at (spadKey 0 0x80) none ∧
      (labCopies [aCopy [] false] 1).isBad (spadKey 0 0x100) = false ∧
      (labCopies [aCopy [] false] 1).isLost (spadKey 0 0x80) = false ∧
      ∀ i < 32, (labCopies [aCopy [] false] 1).isLost (spadKey 0 0x100 + i) = false) ∧
    ((aCopy [0] true).next = none ∧ (aCopy [0] true).orphan = true) ∧
    ((aCopy [0] false).next = none ∧ (aCopy [0] false).orphan = false ∧ ((labCopies [] 1).slot 0).inboxOn = true ∧
      ((labCopies [] 1).slot 0).spilled = [] ∧
      32 ≤ ((labCopies [] 1).slot 0).ringSize - ((labCopies [] 1).slot 0).ringHeld) := by decide

theorem witness_CopiesToHome_ends :
    (let c := aCopy [] false;
      0 ∉ c.done ∧ c.chunked = false ∧ c.accSrc = false ∧ c.accDst = false ∧ min 4096 (c.len - 4096 * 0) = 32 ∧
        (∀ x < 32, (labCopies [c] 1).isBad (spadKey 0 0x100 + x) = false ∧ (labCopies [c] 1).isLost (spadKey 0 0x80 + x) = false ∧
          ∀ y < 32, spadKey 0 0x100 + x ≠ spadKey 0 0x80 + y) ∧ (c.len + 4095) / 4096 ≤ 1) ∧
    (let c := { aCopy [] false with src := 0x3C000000000 };
      c.next = some 0 ∧ 32 ≤ c.len - 4096 * 0 ∧ ∃ e, 0 < e ∧ e < 2 ^ 8 ∧ c.source (labCopies [c] 1) (4096 * 0) = .fault e) ∧
    (labCopies [{ aCopy [] false with due := 9 }] 1).unitFree { aCopy [] false with due := 9 } = false ∧
    (∃ code detail va, (labDesc 0x80 0x3C000000000 32).checkCopy 0x40 ((labDesc 0x80 0x3C000000000 32).spadBytes 0x40 32) =
      .error (code, detail, va)) ∧
    ∀ x, (labCopies [] 1).isLost ((labCopies [] 1).ringKey 0 x) = false :=
  ⟨by decide +kernel, ⟨by decide, by decide, 2, by decide, by decide, rfl⟩, by decide, ⟨_, _, _, rfl⟩, fun _ => kept rfl rfl _⟩

/-- lab with its barrier group in a stage, at a time, its task a participant asleep in the barrier. -/
def labBar (st : BarStage) (time : Nat) : State :=
  { (labT fun t => { t with status := .asleep, cond := .barrier, bar := .arrived true false }).modPart 0 fun p =>
      { p with bars := [(0, { Bar.reset with stage := st, resume := [0], armed := [0] })] } with time := time }

theorem witness_BarriersAndReleases :
    (labSvc.me.svc = true ∧ labSup.me.sup = true ∧ lab.me.svc = false ∧ lab.me.sup = false) ∧
    (labT fun t => { t with bar := .passed 1 false }).me.bar = .passed 1 false ∧
    (lab.me.bar = .away ∧ lab.inPhase = false ∧ lab.me.log.entries = [] ∧ lab.ownWork lab.cur = false ∧
      (labCopies [aCopy [] false] 1).ownWork lab.cur = true) ∧
    ((lab.barOf lab.myPart 0).gen + 2 ^ 32 - (2 ^ 32 - 1)) % 2 ^ 32 = 1 ∧
    ((lab.barOf lab.myPart 0).gen + 2 ^ 32 - 0) % 2 ^ 32 = 0 ∧
    (((labBar (.settling 0 [0]) 256).barOf 0 0).stage = .settling 0 [0] ∧ 0 + 256 ≤ (labBar (.settling 0 [0]) 256).time ∧
      (labBar (.settling 0 [0, 4]) 255).time < 0 + 256 ∧ (∀ k ∈ [0], k = 0) ∧ ∃ k ∈ [0, 4], k ≠ 0) ∧
    (let s := labWait [ent 1 .sent] [] 0 0;
      s.me.bar = .away ∧ s.inPhase = false ∧ s.me.log.entries = [ent 1 .sent] ∧ (ent 1 .sent).unanswered = true ∧
        s.answerAll s.cur (ent 1 .sent).raw (ent 1 .sent).cells = none) ∧
    (∃ k ∈ [0], ((labBar (.settled 5) 9).modCore 0 fun c => { c with phase := labPhase.myPhase }).core (coreOf k) ≠
      (labBar (.settled 5) 9).core 0) ∧
    (((labBar (.settled 5) 9).barOf 0 0).stage = .settled 5 ∧
      (∀ k ∈ ((labBar (.settled 5) 9).barOf 0 0).armed, ((labBar (.settled 5) 9).core (coreOf k)).phase = none) ∧
      0 ∈ ((labBar (.settled 5) 9).barOf 0 0).resume ∧ 0 ∈ ((labBar (.settled 5) 9).barOf 0 0).armed ∧
      ((labBar (.settled 5) 9).slot 0).status = .asleep ∧ ((labBar (.settled 5) 9).slot 0).cond = .barrier ∧
      ∀ j ∈ ((labBar (.settled 5) 9).barOf 0 0).armed, coreOf j = coreOf 0 → j = 0) := by decide

theorem witness_BarriersAndReleases_flights : ∀ j, coreOf j = coreOf 0 → ((labBar (.settled 5) 9).slot j).flight = [] := by
  intro j h
  have hj : j < 4 := by simp only [coreOf] at h; omega
  exact (by decide : ∀ j < 4, ((labBar (.settled 5) 9).slot j).flight = []) j hj

/-- A journalled line of 64 bytes. -/
def aRec : JournalRec :=
  { part := 0, group := 0, line := 0x8001, bytes := List.replicate 64 3, poison := false, writers := [] }

/-- lab with its only member arrived, with bits in CHKINT and a journalled line. -/
def labDue (chk : Word) : State :=
  { labT fun t => { t with status := .asleep, cond := .barrier, bar := .arrived false false,
                           sys := { t.sys with chkint := chk } } with journal := [aRec] }

theorem witness_BarrierOutcomes :
    lab.barrierDue 0 0 = false ∧
    ((labDue 0).barrierDue 0 0 = true ∧ (labDue 0).lost = [] ∧ (∀ e ∈ (labDue 0).cores, e.2.failing = false) ∧
      (∀ k ∈ (labDue 0).members 0 0, ((labDue 0).slot k).log.entries = [] ∧ ((labDue 0).core (coreOf k)).view = []) ∧
      0 ∈ (labDue 0).members 0 0 ∧ (labDue 0).checkBits 0 0 = 0) ∧
    ((labDue 2).barrierDue 0 0 = true ∧ (labDue 2).checkBits 0 0 ≠ 0 ∧ ((labDue 2).checkBits 0 0).getLsbD 3 = false ∧
      (∀ k ∈ (labDue 2).members 0 0, ((labDue 2).slot k).sys.chkint.getLsbD 16 = false) ∧
      (labDue 2).maxTries ((labDue 2).members 0 0) < 2 ∧ (labDue 2).services 0 (fun t => t.charged.contains 0) = [] ∧
      (∀ k ∈ (labDue 2).members 0 0, ((labDue 2).slot k).works = []) ∧ Memory.wf (labDue 2).mem = true ∧
      (labDue 2).journal = [aRec] ∧ aRec.bytes.length = 64) := by decide

/-- labDue with a service task in slot 3 charged to group 0, and a second line. -/
def labCharged : State :=
  { (labDue 2).modSlot 3 fun t => { Slot.placed t with
      sys := { t.sys with coord := 0xC0000000000 + 0x1000000000000, tgext := 0x10000000 }, charge := some 0, charged := [0] } with
    journal := [aRec, { aRec with line := 0x8002 }] }

theorem witness_BarrierOutcomes_services :
    labCharged.barrierDue 0 0 = true ∧ labCharged.services 0 (fun t => t.charged.contains 0) = [3] ∧
    ((labCharged.slot 3).log.entries = [] ∧ 3 ∉ labCharged.members 0 0 ∧ (labCharged.slot 3).works = [] ∧
      (labCharged.slot 3).task ≠ none) ∧
    labCharged.undoHeld 0 0 = false ∧ labCharged.maxTries (labCharged.members 0 0) < 2 ∧
    ((labCharged.part? 0).map (·.layersOf 0)) = some [] ∧
    (labCharged.journal.filter fun r => r.part == 0 && r.group == 0).Pairwise (fun r q => r.line ≠ q.line) := by decide

/-- A phase of slot 0, and lab in it with entry e in place 0 of its timetable and a, b in s1 and s2. -/
def aPhase : Phase := { slot := 0, t0 := 0, windows := [], sentEnd := 0, got := 0, sends := [] }
def labIn (p : Phase) (e : Word) (a b d : Word) (now : Nat) : State :=
  { (lab3 a b d).modCore 0 fun c => { c with phase := some p, timetable := [(0, e)], now := now } with time := now }

theorem witness_CommunicationPhase_syllables :
    (256 < ((lab3 0 0xFF01 0).rs 2).toNat % 256 + (((lab3 0 0xFF01 0).rs 2).toNat / 256 % 256 + 1)) ∧
    (((lab3 0x1F800 0xFF00 0).rs 2).toNat % 256 + (((lab3 0x1F800 0xFF00 0).rs 2).toNat / 256 % 256 + 1) ≤ 256 ∧
      (lab3 0x1F800 0xFF00 0).localAt ((lab3 0x1F800 0xFF00 0).rs 1) 0 0x1F800 ∧ 0x1F800 + 8 * 256 ≤ 2 ^ 17 ∧
      lab.me.permits [3] 0x1F800 (8 * 256) = true) ∧
    lab.myPhase = none ∧ (labIn aPhase 0 0 0 0 0).myPhase = some aPhase ∧
    ((0 : Word).toNat / 2 ^ 62 ≠ 1 ∧ (0x4000000000000000 : Word).toNat / 2 ^ 62 = 1 ∧ lab.curPart.hasCol 0 = true ∧
      (labIn aPhase 0x4000000000000000 0x1E000 0xFF00 0 0).localAt ((labIn aPhase 0x4000000000000000 0x1E000 0xFF00 0 0).rs 1) 0
        0x1E000 ∧ 0x1E000 + 32 * 256 ≤ 2 ^ 17 ∧ lab.me.permits [3] 0x1E000 (32 * 256) = true) ∧
    (0 < (labIn aPhase 0 0 0 0 1).myOffset aPhase ∧ (labIn aPhase 0 0 0 0 0).myOffset aPhase ≤ 0) ∧
    (0x10000 + 32 * 2048 ≤ 2 ^ 17 ∧ lab.me.permits [4] 0x10000 (32 * 2048) = true) ∧
    ((0x8000000000000000 : Word).toNat / 2 ^ 62 = 2 ∧ (0x8000000000000000 : Word).toNat % 256 ≤ 191 ∧
      (labIn aPhase 0x8000000000000000 0x100 0 0x200 0).localAt ((labIn aPhase 0x8000000000000000 0x100 0 0x200 0).rs 3) 0 0x200 ∧
      lookup 0 (labIn aPhase 0x8000000000000000 0x100 0 0x200 0).myCore.timetable 0 = 0x8000000000000000 ∧
      0 < 0 / 2 ^ 36 % 256 + 1 ∧ 0 + (0 / 2 ^ 36 % 256 + 1) ≤ 256) ∧
    ((labIn aPhase 0 0 0 0 0).phaseDone 0 0 = true ∧
      (labIn { aPhase with windows := [⟨0, 9, 1, 0, 1, 0, none, false⟩] } 0 0 0 0 0).phaseDone 0 0 = false) ∧
    (lab.curPart.hasCol (0x4000000000007FFF % 2 ^ 15) = false ∧ 0x4000000000007FFF / 2 ^ 62 = 1) ∧
    (1 ≤ 0x100000000000 / 2 ^ 44 % 256 ∧ 256 < 0x1FF0000000 / 2 ^ 28 % 256 + (0x1FF0000000 / 2 ^ 36 % 256 + 1)) ∧
    (let w : Window := ⟨0, 9, 5, 0, 1, 0, none, false⟩;
      let s := labIn { aPhase with windows := [w] } 0 0 0 0 0;
      w.frag = none ∧ w.closed = false ∧ s.myOffset { aPhase with windows := [w] } < min (w.opens + w.width) (2 ^ 20) ∧
        w.port = (10 : Nat) / 2 ^ 48 % 4 ∧ w.opens < 10 + (10 / 2 ^ 20 % 2 ^ 16 + 1) ∧ 10 < w.opens + w.width ∧
        ¬ (w.opens < 20 + (20 / 2 ^ 20 % 2 ^ 16 + 1) ∧ 20 < w.opens + w.width)) :=
  ⟨by decide, ⟨by decide, rfl, by decide, by decide +kernel⟩, by decide, by decide,
    ⟨by decide, by decide, by decide, rfl, by decide, by decide +kernel⟩, by decide, by decide +kernel,
    ⟨by decide, by decide, rfl, by decide⟩, by decide, by decide, by decide, by decide⟩

/-- A flit for port 1 of core 0, and a window that takes it. -/
def aFlit (lost : Option Nat) (notice : Bool) : Flit :=
  { src := 0, orphan := false, dst := 0, port := 1, mtrx := none, bytes := List.replicate 32 9, arrives := 7, lanes := [],
    notice := notice, lostAt := lost }
def aWin : Window := { port := 1, opens := 0, width := 100, base := 0, cap := 1, got := 0, frag := none, closed := false }

/-- lab in a phase at a time, with flits in flight. -/
def labFlits (p : Phase) (fs : List Flit) (now : Nat) : State := { labIn p 0 0 0 0 now with flits := fs }

theorem witness_CommunicationPhase_flits :
    (let p := { aPhase with sends := [⟨3, 1, 0, 0, 1, 0, none⟩] };
      ((labFlits p [] 8).core 0).phase = some p ∧
      (∀ c ∈ (labFlits p [] 8).phaseClocks ++ (labFlits p [] 8).departures ++ (labFlits p [] 8).arrivals, 3 ≤ c) ∧
      3 ≤ (labFlits p [] 8).time) ∧
    (let p := { aPhase with windows := [aWin] };
      let s := labFlits p [aFlit none false] 8;
      (s.flits.filter fun f => f.dst == 0 && !f.notice)[0]? = some (aFlit none false) ∧ (∀ c ∈ s.phaseClocks, 7 ≤ c) ∧
      (∀ c ∈ s.departures, 7 < c) ∧ (∀ c ∈ s.arrivals, 7 ≤ c) ∧ 7 ≤ s.time ∧ Memory.wf s.mem = true ∧
      (s.core 0).phase = some p ∧ aWin.opens ≤ s.phaseOffset 0 p.t0 7 ∧
      s.phaseOffset 0 p.t0 7 < min (aWin.opens + aWin.width) (2 ^ 20) ∧ aWin.got < aWin.cap ∧
      s.isLost (spadKey 0 (aWin.base + 32 * aWin.got)) = false ∧ (aFlit none false).bytes.length = 32 ∧
      (aFlit none false).mtrx = none ∧ aWin.port = (aFlit none false).port ∧ aWin.closed = false) ∧
    (let f := { aFlit none false with port := 4, mtrx := some (1, 0) };
      let w := { aWin with port := 4, frag := some 2, cap := 3 };
      f.mtrx = some (1, 0) ∧ w.frag = some 2 ∧ 2 * 1 + 0 < w.cap ∧ w.port = f.port) ∧
    ({ aWin with port := 2 }.port ≠ (aFlit none false).port) ∧
    (((labFlits aPhase [aFlit none false] 8).core 0).phase = some aPhase ∧ aPhase.windows = [] ∧
      (aFlit (some 3) false).lostAt ≠ none) ∧
    ((lab.core 0).phase = none ∧ (aFlit none false).lostAt = none) ∧
    (labFlits aPhase [aFlit none true] 8).flits.find? (fun f => f.notice && coreOf f.src == 0) = some (aFlit none true) ∧
    (let p := { aPhase with windows := [aWin] };
      let s := labFlits p [] 100;
      s.phaseTime 0 p.t0 (min (aWin.opens + aWin.width) (2 ^ 20)) = 100 ∧
      (∀ c ∈ s.phaseClocks ++ s.departures ++ s.arrivals, 100 ≤ c) ∧ 100 ≤ s.time) ∧
    (let s := labFlits aPhase [] (2 ^ 20);
      (s.core (coreOf aPhase.slot)).phase = some aPhase ∧ (s.slot aPhase.slot).cond ≠ .phase ∧
      2 ^ 20 ≤ s.phaseOffset 0 0 s.time ∧ s.phaseTime 0 0 (2 ^ 20) ≤ s.time ∧ aPhase.sends = [] ∧
      ∀ c ∈ s.phaseClocks ++ s.departures ++ s.arrivals, s.phaseTime 0 0 (2 ^ 20) ≤ c) ∧
    ({ aPhase with sends := [⟨3, 1, 0, 0, 1, 0, none⟩] } : Phase).sends ≠ [] := by decide

/-- The 64 bytes of a job descriptor, from its first two words and its operand addresses. -/
def jobBytes (head step a b : Nat) : List Byte := bytesOf 8 head ++ bytesOf 8 step ++ bytesOf 8 a ++ bytesOf 40 b

/-- A job of slot 0, and lab with jobs in flight, numbers up to 1 issued and a descriptor head and step at 0x40. -/
def aJob (r : List Byte) (tile : Option (Nat × Nat)) (run orphan : Bool) : Job :=
  { slot := 0, id := 1, desc := r, geom := 0, tile := tile, group := some 0, charged := true, running := run,
    resumed := false, orphan := orphan, due := 0, descAt := 0, ldesc := [], fault := none, begun := false, chunks := 0, flags := 0, sat := false,
    bad := false }
def labJobs (js : List Job) (x : Word) (head step : Nat) : State :=
  { (((labT fun t => { t with regs := Regs.three x 0 0, counters := { t.counters with jobId := 1 } }).poke (spadKey 0 0x40)
      head).poke (spadKey 0 0x48) step) with jobs := js }

/-- A check that finds a value, by evaluation. -/
theorem some_of {α : Type} (c : Option α) (p : α → Bool) (h : (match c with | some x => p x | none => false) = true) :
    ∃ x, c = some x ∧ p x = true := by
  cases c with
  | some x => exact ⟨x, rfl, h⟩
  | none => cases h

theorem witness_MatrixJobs_syllables :
    (labT fun t => { t with sys := SlotSys.reset }).me.inboxOn = false ∧
    ((labJobs [] 0x40 0x10100 1).localAt ((labJobs [] 0x40 0x10100 1).rs 1) 0 0x40 ∧ (labJobs [] 0x40 0 0).me.inboxOn = true ∧
      ((labJobs [] 0x40 0x10100 1).rs 1).toNat % 64 = 0 ∧ (labJobs [] 0x40 0 0).me.permits [3] 0x40 64 = true) ∧
    jobOk ((labJobs [] 0x40 6 0).spadBytes 0x40 64) = false ∧
    (let r := (labJobs [] 0x40 0x20001 0).spadBytes 0x40 64;
      jobOk r = true ∧ 1 ≤ jobKind r ∧ jobKind r ≤ 4 ∧ (labJobs [] 0x40 0x20001 0).sparseOk r = false) ∧
    (let s := labJobs [] 0x40 0x10100 1;
      let r := s.spadBytes 0x40 64;
      jobOk r = true ∧ jobKind r = 0 ∧ s.me.tileOf (recNat 8 4 r) = none) ∧
    (let s := labJobs [] 0x40 0x10100 0;
      let r := s.spadBytes 0x40 64;
      s.me.tileOf (recNat 8 4 r) = some (0, 0) ∧ s.checkPanels (s.rs 1) r s.me.sys.geom 0 0 = .ok ()) ∧
    (16 ≤ (List.replicate 16 (aJob [] none false false)).length ∧ (labJobs [] 0 0 0).jobs.length < 16) ∧
    (2 ^ 31 ≤ ((labJobs [] 2 0 0).me.counters.jobId + 2 ^ 32 - 2) % 2 ^ 32 ∧
      ¬ 2 ^ 31 ≤ ((labJobs [] 1 0 0).me.counters.jobId + 2 ^ 32 - 1) % 2 ^ 32 ∧
      (labJobs [aJob [] none false false] 1 0 0).jobOf 0 1 = some (aJob [] none false false) ∧
      (labJobs [] 1 0 0).jobOf 0 1 = none) :=
  ⟨by decide, ⟨rfl, by decide⟩, by decide, by decide, by decide, by decide, by decide, by decide⟩

theorem witness_MatrixJobs_engine :
    (let j := aJob (jobBytes 0x10100 1 0 0) none false false;
      (labJobs [j] 1 0 0).blockJobs 0 = [j] ∧ (labJobs [j] 1 0 0).isOut (0 * 32) = false ∧ j.running = false ∧
      (lookup Engine.reset (labJobs [j] 1 0 0).engines 0).core < 8 ∧ j.due ≤ (labJobs [j] 1 0 0).time ∧
      (labJobs [{ j with due := 9 }] 1 0 0).time < 9) ∧
    (let j := aJob (jobBytes 0x10100 1 0 0) none true false;
      ∃ x, j.run (labJobs [j] 1 0 0) = some x ∧ (x.2.fault == 0 && decide ((labJobs [j] 1 0 0).blockJobs 0 = [j]) &&
        (labJobs [j] 1 0 0).isOut 0 == false && ((labJobs [j] 1 0 0).slot 0).inboxOn &&
        decide (((labJobs [j] 1 0 0).slot 0).spilled = []) && Memory.wf (labJobs [j] 1 0 0).mem &&
        decide (32 ≤ ((labJobs [j] 1 0 0).slot 0).ringSize - ((labJobs [j] 1 0 0).slot 0).ringHeld)) = true) ∧
    (let j := aJob (jobBytes 0x10100 0 0x400 0x800) (some (0, 0)) true true;
      (labJobs [j] 1 0 0).blockJobs 0 = [j] ∧ jobKind j.desc = 0 ∧ jobA j.desc = 1 ∧ jobB j.desc = 1 ∧ jobFlags j.desc = 0 ∧
      jobTile j.desc ≤ 7 ∧ 0 < validRows j.geom 0 ∧ 0 < validCols j.geom 0 ∧ (labJobs [j] 1 0 0).isOut 0 = false ∧
      Memory.wf (labJobs [j] 1 0 0).mem = true ∧ j.begun = false ∧ j.chunks = 0 ∧ 0 ∉ (labJobs [j] 1 0 0).mc.unplaced) ∧
    (let j := aJob (jobBytes 0x10100 0 0x400 0x800) (some (0, 0)) true true;
      ∃ x, j.run (labJobs [j] 1 0 0) = some x ∧ (x.2.fault == 0 && j.orphan) = true) ∧
    ∀ c, (labJobs [] 1 0 0).isLost ((labJobs [] 1 0 0).ringKey 0 c) = false :=
  ⟨by decide, some_of _ _ (by decide), by decide, some_of _ _ (by decide +kernel), fun _ => kept rfl rfl _⟩

theorem witness_MatrixJobs_moves :
    (∃ o, (lab3 0x100 0xFF000000 0).checkMove ((lab3 0x100 0xFF000000 0).rs 1) ((lab3 0x100 0xFF000000 0).rs 2) 0 [4] = .ok o ∧
      ((CellRange.read ((lab3 0x100 0xFF000000 0).rs 2)).rows == 1) = true) ∧
    (∃ o, (lab3 0x100 0 0).checkMove 0x100 0 0 [3] = .ok o ∧ (o == 0x100) = true) ∧
    lab.checkMove 0x100 0 7 [4] = .error (0x01, 0, lab.ir) ∧ lab.checkMove 0x3C000000000 0 0 [3] = .error (0x04, 0, 0x3C000000000) ∧
    (lcolOf lab.cur ∉ lab.mc.unplaced ∧ ∀ j ∈ lab.jobs, j.running = true → coreOf j.slot ≠ coreOf lab.cur) :=
  ⟨ok_of _ _ (by decide), ok_of _ _ (by decide), by decide, by decide, by decide⟩

/-- A ring slot, and lab with layer 0 described at 0x200100, enabled or not, its ring slot 0 as given, x in s1. -/
def aRing (st : RingState) (bound : Nat) : RingSlot :=
  { state := st, ver := 1, bound := bound, boundAt := 0, born := false, clearing := [], giveUp := false, stalled := false }
def labLayer (en : Bool) (r : RingSlot) (x : Word) : State :=
  let s := (lab3 x 0 0).modPart 0 fun p =>
    { p with ltbase := 0x200100, layers := [(0, { Layer.reset with ring := Layer.reset.ring.set 0 r })] }
  (((((s.poke 0x200100 0x200000).poke 0x200108 0x200000).poke 0x200110 0x100000001).poke 0x200118 64).poke 0x200120
    0x10000).poke 0x200128 (0x40000 + if en then 2 ^ 40 else 0)

/-- A mask request of slot 0 for layer 0, and labLayer with it in flight. -/
def aReq (hist orphan : Bool) : MaskReq :=
  { slot := 0, id := 1, hist := hist, desc := List.replicate 32 0, group := some 0, charged := true, orphan := orphan,
    deferred := false, due := 0, descAt := 0x200100, ldesc := [], fault := none, held := false }
def labReq (en : Bool) (r : MaskReq) : State := { labLayer en RingSlot.reset 0 with masks := [r] }

theorem witness_MaskLayers_rings :
    (let s := labLayer true (aRing .current 0) 0;
      s.homeLost 0 = false ∧ ∃ x, s.engine s.myPart (Eng.desc s.myPart 0 (s.curPart.descAddr 0)) = .ok x ∧
        ((x.2.st.part? s.myPart).isSome && x.1.en && s.descOk x.1 && (x.2.st.layer s.myPart 0).find .current == some 0 &&
          decide (((x.2.st.layer s.myPart 0).slot 0).bound < 65535)) = true) ∧
    (let s := labLayer false RingSlot.reset 0;
      ∃ x, s.engine s.myPart (Eng.desc s.myPart 0 (s.curPart.descAddr 0)) = .ok x ∧
        (!x.1.en && (x.2.st.part? s.myPart).isSome && ((x.2.st.layer s.myPart 0).find .current).isNone) = true) ∧
    (∀ q < 4, ((lab.layer lab.myPart 0).slot q).bound < 2 ^ 16 ∧ ((lab.layer lab.myPart 0).slot q).ver < 2 ^ 32) ∧
    (let s := labLayer true (aRing .current 1) 0x100000000;
      s.handleOk s.myPart (s.rs 1) = true ∧ ((s.layer s.myPart 0).slot 0).bound ≠ 0 ∧
      (labLayer true (aRing .current 0) 0x100000000).handleOk 0 0x200000000 = false) ∧
    ((lab.part? lab.myPart).isSome ∧ (lab.parts.map (·.1)).Pairwise (· < ·) ∧ lab.me.sup = false ∧ labSup.me.sup = true ∧
      lab.layerBusy lab.myPart 0 = false ∧ (labReq false (aReq false false)).layerBusy 0 0 = true) ∧
    lab.me.redo.map (·.cond) ≠ some (.layerIdle 0) :=
  ⟨⟨by decide, ok_of _ _ (by decide +kernel)⟩, ok_of _ _ (by decide +kernel), by decide, by decide, by decide, by decide⟩

/-- An instruction that sleeps. -/
def aRedo (i : Instr) (c : Cond) : Redo :=
  { instr := i, cond := c, ir := 0, read := Regs.start, undo := Regs.start, undoFlags := 0, undoBlocks := [], loops := [] }

/-- What reading the descriptor ends in. -/
def readEnds (s : State) : Option (Option Nat) :=
  match s.engine s.myPart (Eng.desc s.myPart 0 (s.curPart.descAddr 0)) with
  | .ok _ => none
  | .error x => some x.1

/-- labLayer once a descriptor of zeros has been read: its home is column 0. -/
def labReadLayer : State := (labLayer true (aRing .current 0) 0).modLayer 0 0 fun y => { y with desc := List.replicate 64 0 }

/-- labLayer with its descriptors at an address. -/
def labTable (va : Word) : State := (labLayer true (aRing .current 0) 0).modPart 0 fun p => { p with ltbase := va }

theorem witness_MaskLayers_reads :
    (readEnds ((labTable 0x200100).poke 0x101100 0x4000034F) = some none) ∧
    (readEnds (labTable 0x210000) = some (some 1) ∧
      ∃ code detail, (labTable 0x210000).pageAnswer ((labTable 0x210000).curPart.descAddr 0) .load = .trap code detail) ∧
    readEnds (labTable 0x3C000000000) = some (some 2) ∧
    (({ labReadLayer with lost := [0] } : State).homeLost 0 = true) ∧
    (let x := labLayer true (aRing .current 65535) 0; ((x.layer 0 0).find .current = some 0 ∧ ((x.layer 0 0).slot 0).bound = 65535)) ∧
    ((labT fun t => { t with redo := some (aRedo .cnop (.layerIdle 0)) }).me.redo.map (·.cond)) = some (.layerIdle 0) :=
  ⟨by decide +kernel, ⟨by decide +kernel, _, _, rfl⟩, by decide +kernel, by decide, by decide, by decide⟩

theorem witness_MaskLayers_requests :
    ((labDesc 0 0 0).me.inboxOn = true ∧ (labDesc 0 0 0).localAt ((labDesc 0 0 0).rs 1) 0 0x40 ∧
      (labDesc 0 0 0).me.permits [3] 0x40 32 = true ∧
      (1 < recNat 4 1 ((labDesc 0x200000000 0 0).spadBytes 0x40 32) ∧ 2 < recNat 5 1 ((labDesc 0x30000000000 0 0).spadBytes 0x40 32)) ∧
      (recNat 4 1 ((labDesc 0 0 0).spadBytes 0x40 32) ≤ 1 ∧ recNat 5 1 ((labDesc 0 0 0).spadBytes 0x40 32) ≤ 2 ∧
        (labDesc 0 0 0).localAt 0 0 0 ∧ histBytes 0 ≤ 2 ^ 17 ∧ (labDesc 0 0 0).me.permits [4] 0 (histBytes 0) = true)) ∧
    (16 ≤ (List.replicate 16 (aReq false false)).length ∧ (labDesc 0 0 0).masks.length < 16) ∧
    (let r := aReq false true;
      (labReq false r).maskOf 0 1 = some r ∧ (labReq false r).isNext r = true ∧ ∃ x, (labReq false r).serveUpdate r = some x ∧
        (x.2.status == 5) = true) ∧
    (let r := aReq true true;
      (labReq false r).isOut 0 = false ∧ ∃ x, (labReq false r).serveHist r = some x ∧ (x.2.status == 5) = true) ∧
    (let r := aReq false false;
      (labReq false r).maskOf 0 1 = some r ∧ (labReq false r).isNext r = true ∧
        ∃ x, (labReq false r).requestDesc ((labReq false r).partNoOf 0) r = .ok x ∧
          (!x.1.en && (x.2.slot 0).inboxOn && decide ((x.2.slot 0).spilled = []) && !x.2.isOut 0 &&
            decide (32 ≤ (x.2.slot 0).ringSize - (x.2.slot 0).ringHeld) && Memory.wf x.2.mem &&
            decide (x.2.lost = []) && decide (x.2.mc.unplaced = [])) = true) ∧
    (let r := { aReq false false with due := 9 }; (labReq false r).isNext r = false) ∧
    ((lab.part? (0 : BitVec 4).toNat).isSome ∧ ((lab.layer 0 0).slot 0).state ≠ .retired ∧
      (((labLayer true (aRing .retired 0) 0).layer 0 0).slot 0).state = .retired ∧
      ((labLayer true (aRing .retired 0) 0).layer 0 0).known.reccap = 0 ∧
      ((lab.layer 0 0).slot 0).clearing = [] ∧ ((lab.layer 0 0).slot 0).giveUp = false ∧
      { aRing .building 0 with giveUp := true }.giveUp = true) :=
  ⟨⟨by decide, rfl, by decide +kernel, by decide, by decide, by decide, rfl, by decide, by decide +kernel⟩, by decide,
    ⟨by decide, by decide, some_of _ _ (by decide +kernel)⟩, ⟨by decide, some_of _ _ (by decide +kernel)⟩,
    ⟨by decide, by decide, ok_of _ _ (by decide +kernel)⟩, by decide, by decide⟩

/-- labSup with groups and an id in s1. -/
def labKill (gs : List Group) (x : Word) : State :=
  (labT fun t => { t with regs := Regs.three x 0x10000 0, trap := { t.trap with status := 1 } }).modPart 0 fun p =>
    { p with groups := gs }

/-- A second group, with a token. -/
def other : Group := { Group.placed with tgid := 2, sig := 5 }

theorem witness_KillsInvalidationsAndEnds_kills :
    ((lab.part? lab.myPart).isSome ∧ labPhase.inPhase = true ∧ labSup.inPhase = false ∧ labSup.me.sup = true) ∧
    (let s := labKill [Group.placed] 2; ((s.part? 0).map (·.groups.find? fun g => g.tgid == (s.rs 1).toNat % 2 ^ 16)) = some none) ∧
    (let s := labKill [Group.placed, other] 2;
      ((s.part? 0).map (·.groups.find? fun g => g.tgid == (s.rs 1).toNat % 2 ^ 16)) = some (some other) ∧
      (s.rs 1).toNat % 2 ^ 16 ≠ s.me.tgid ∧ other.sig ≠ 0 ∧ (∀ x ∈ [Group.placed, other], x.waits = []) ∧
      (s.slots.map (·.1)).Pairwise (· < ·)) ∧
    (let s := labKill [Group.placed] 1;
      ((s.part? 0).map (·.groups.find? fun g => g.tgid == (s.rs 1).toNat % 2 ^ 16)) = some (some Group.placed) ∧
      (s.rs 1).toNat % 2 ^ 16 = s.me.tgid) ∧
    ((lab3 0 0 0).rs 2 = 0 ∧ (labKill [] 0x200000).rs 2 ≠ 0 ∧
      (let s := (labKill [] 0x200000).modSlot 4 fun t => { t with status := .asleep, cond := .migration 0x200008 };
        (s.slot 4).status = .asleep ∧ (s.slot 4).cond = .migration 0x200008 ∧ s.partNoOf 4 = s.myPart ∧
        (s.rs 1).toNat % 2 ^ 42 < (0x200008 : Word).toNat / 2 ^ 16 % 2 ^ 26 * 2 ^ 16 + 2 ^ 16 ∧
        (0x200008 : Word).toNat / 2 ^ 16 % 2 ^ 26 * 2 ^ 16 < min ((s.rs 1).toNat % 2 ^ 42 + (s.rs 2).toNat) (2 ^ 42))) := by
  decide

/-- lab with two tasks of its group still to end. -/
def labTwo : State := labP fun p => { p with groups := [{ Group.placed with ext := 1 }] }

theorem witness_KillsInvalidationsAndEnds_ends :
    (labRefused.me.flight = [] ∧ labRefused.inPhase = false ∧ labRefused.me.log.entries = [ent 1 (.refused 1)] ∧
      labRefused.me.sup = false ∧ ((labRefused.part? labRefused.myPart).map (·.trapvec.getLsbD 0)) = some true) ∧
    (lab.me.log.entries = [] ∧ lab.me.quar = false ∧ (labCopies [aCopy [] false] 1).ownWork lab.cur = true ∧
      lab.ownWork lab.cur = false ∧ lab.me.svc = false) ∧
    ((labDue 2).me.sys.chkint.toNat / 2 % 2 ^ 6 ≠ 0 ∧ lab.me.sys.chkint.toNat / 2 % 2 ^ 6 = 0 ∧ lab.me.partNo = lab.myPart) ∧
    (labSvc.me.svc = true ∧ (labSvc.modSlot 0 fun t => { t with charge := some 3 }).me.charge = some 3 ∧
      labSvc.me.partNo = labSvc.myPart) ∧
    (((lab.part? 0).map fun p => (p.groups.find? (fun g => g.tgid == lab.me.tgid), p.allStarted Group.placed)) =
        some (some Group.placed, true) ∧ Group.placed.ended + 1 = Group.placed.total) ∧
    ({ Group.placed with ext := 1 }.ended + 1 ≠ { Group.placed with ext := 1 }.total ∧
      ((labTwo.part? 0).map fun p => p.groups.find? (fun g => g.tgid == labTwo.me.tgid)) =
        some (some { Group.placed with ext := 1 })) := by decide

/-- A launch message of an entry and an extent word from the host, and lab with it at the endpoint. -/
def aLaunch (entry ext : Nat) : Launch := { bytes := bytesOf 8 entry ++ bytesOf 8 7 ++ bytesOf 16 ext ++ bytesOf 32 0, sender := none }
def labLaunch (l : Launch) : State := labP fun p => { p with launches := [l] }

/-- The partition of labLaunch. -/
def partLaunch (l : Launch) : Part := { Part.placed with groups := [Group.placed], launches := [l] }

theorem witness_LaunchesStartsAndWakes_launches :
    (∀ l ∈ [aLaunch 0x200001 0, aLaunch 0x200000 0, aLaunch 0x200000 0x1F00], (labLaunch l).part? (0 : BitVec 4).toNat =
      some (partLaunch l) ∧ (partLaunch l).launches = [l] ∧ (partLaunch l).out = none ∧ l.sender = none) ∧
    (LaunchMsg.read (aLaunch 0x200001 0).bytes).entry.toNat % 8 ≠ 0 ∧
    (let m := LaunchMsg.read (aLaunch 0x200000 0x1F00).bytes;
      (labLaunch (aLaunch 0x200000 0x1F00)).entryOk (partLaunch (aLaunch 0x200000 0x1F00)) m.entry = true ∧
      24 < m.ext / 2 ^ 8 % 32 + 1 ∧
      (labLaunch (aLaunch 0x200000 0x1F00)).launchCode (partLaunch (aLaunch 0x200000 0x1F00)) m ≠ 0) ∧
    (let m := LaunchMsg.read (aLaunch 0x200000 0).bytes;
      (labLaunch (aLaunch 0x200000 0)).launchCode (partLaunch (aLaunch 0x200000 0)) m = 0 ∧ m.waita = 0 ∧ m.waitb = 0 ∧
      (∀ g ∈ (partLaunch (aLaunch 0x200000 0)).groups, g.tgid ≠ (partLaunch (aLaunch 0x200000 0)).nextTgid) ∧
      (partLaunch (aLaunch 0x200000 0)).nextTgid < 2 ^ 16) ∧
    ((lab.part? 0).map (·.launches)) = some [] := by decide

/-- A group none of whose tasks has started, and lab with it queued and its slots free. -/
def queued : Group := { Group.placed with started := [] }
def labQueued : State := { labP fun p => { p with groups := [queued] } with slots := [] }
def partQueued : Part := { Part.placed with groups := [queued] }

theorem witness_LaunchesStartsAndWakes_starts :
    (labQueued.partAt (0 / 32) = some (0, partQueued) ∧ labQueued.part? 0 = some partQueued) ∧
    (lab.startFor partQueued 4 = none ∧ (lab.slot 0).status ≠ .free) ∧
    (labQueued.startFor partQueued 0 = some queued ∧ (labQueued.slot 0).status = .free ∧ partQueued.out = none ∧
      labQueued.mc.stopped = false ∧ 0 / 32 ∉ labQueued.mc.unplaced ∧ queued.tgid < 2 ^ 16) := by decide

/-- lab asleep. -/
def labAsleep (c : Cond) : State := labT fun t => { t with status := .asleep, cond := c, wd := 2 ^ 21 }

theorem witness_LaunchesStartsAndWakes_wakes :
    (lab.slot 0).status ≠ .asleep ∧
    (∀ c ∈ [Cond.record, .job 1, .work, .generation 0 4294967295, .published 4 0, .layerIdle 0, .barrier],
      ((labAsleep c).slot 0).status = .asleep ∧ (labAsleep c).isOut 0 = false ∧ ((labAsleep c).slot 0).cond = c) ∧
    ((lab.slot 0).wd < 2 ^ max 12 (min 30 ((lab.slot 0).sys.slotcfg.toNat % 2 ^ 5)) ∧
      2 ^ max 12 (min 30 (((labAsleep .work).slot 0).sys.slotcfg.toNat % 2 ^ 5)) ≤ ((labAsleep .work).slot 0).wd ∧
      ((labAsleep .work).slot 0).flight = [] ∧ ((labAsleep .work).core (coreOf 0)).phase = none) ∧
    (((labAsleep (.gang 3 1)).slot 0).cond = .gang 3 1 ∧ (labAsleep (.gang 3 1)).time < 1 ∧ 0 ≤ (labAsleep (.gang 3 0)).time) := by
  decide

/-- lab with its core's counters changed. -/
def labCore (f : Core → Core) : State := lab.modCore 0 f

theorem witness_ReliabilityEvents :
    (lab.coreBusy 1 = false ∧ lab.coreBusy 0 = true) ∧ lab.gangless (0 * 4) ∧
    ((labCore fun c => { c with consec := 2, consecPc := 8 }).core 0).consec + 1 = max 1 ((lab.core 0).margin.toNat / 2 ^ 24 % 2 ^ 4) ∧
    ((lab.core 0).margin.getLsbD 31 = true ∧ (lab.core 0).failing = false) ∧
    (((labCore fun c => { c with consec := 15, consecPc := 8 }).core 0).consec + 1 = 16) ∧
    (((labCore fun c => { c with atZero := 63 }).core 0).atZero + 1 = 64 ∧ (lab.core 0).period = lab.periodOf 0) ∧
    ((labCore fun c => { c with period := 1 }).core 0).period ≠ (labCore fun c => { c with period := 1 }).periodOf 0 ∧
    ((lab.slot 4).status = .free ∧ (lab.slot 0).status ≠ .free) ∧
    (lab.keyExists 0x1BF00000000 = false ∧ lab.keyExists 0x1BEFFFFFFFF = true) ∧
    ((lab.partAt 0).map (·.1) = some 0 ∧ 0 ∉ lab.lost ∧ ((lab.part? 0).map (·.groups)) = some [Group.placed] ∧
      ((labP fun p => { p with groups := [] }).part? 0).map (·.groups) = some [] ∧ (lab.parts.map (·.1)).Pairwise (· < ·) ∧
      0 ∉ lab.mc.unplaced) :=
  ⟨by decide, rfl, by decide⟩

/-- lab with port 0 up, its mailbox busy with a command code and request, written by its owner
or by another. -/
def labCmd (code : Nat) (r : List Byte) (own : Bool) : State :=
  { lab with host := { HostSide.reset with owned := own, order := [0], ports :=
      [(0, { Port.reset with up := true, busy := true, mbxcmd := code, request := r, cmdOwned := own })] } }

/-- A request: bytes 0 to 7 as one number, then quads, with zeros up to 256 bytes. -/
def reqOf (head : Nat) (quads : List Nat) : List Byte :=
  (bytesOf 8 head ++ quads.flatMap (bytesOf 8) ++ List.replicate 256 0).take 256

/-- lab with port 0 up and idle, its owner or not. -/
def labPort (own : Bool) : State :=
  { lab with host := { HostSide.reset with owned := own, ports := [(0, { Port.reset with up := true })] } }

/-- labPort with what stands under HostSide changed, at a time. -/
def labHost (time : Nat) (f : HostSide → HostSide) : State := { labPort true with host := f (labPort true).host, time := time }

theorem witness_HostPortsAndOwnership :
    (((labPort true).port 0).up = true ∧ (labPort true).isOwner 0 = true ∧ (labPort false).isOwner 0 = false ∧
      (labPort true).mc.hbmtop ≤ 2 ^ 41 ∧ Memory.wf (labPort true).mem = true) ∧
    (0x1BF00000000 - 1 + 1 ≤ lab.mc.hbmtop ∧ lab.mc.hbmtop - 0xFD8000000 < 0x1BF00000000 - 1 + 1 ∧
      0x200000 + 64 ≤ lab.mc.hbmtop - 0xFD8000000) ∧
    ((labPort false).host.owned = false ∧ (labPort true).host.owned = true ∧ (labPort true).host.owner = 0 ∧
      (labPort true).host.hpend = false ∧ (labPort true).port (labPort true).host.owner = { Port.reset with up := true }) ∧
    (let s := labHost (100 * 1000 * 1900 - 1) fun h => { h with hpend := true, target := 0, owner := 1 };
      s.host.hpend = true ∧ s.host.target = 0 ∧ s.time < s.host.handoverAt + 100 * 1000 * s.mc.clock ∧ (s.port 0).up = true) ∧
    (let s := labHost (100 * 1000 * 1900) fun h => { h with hpend := true };
      s.host.hpend = true ∧ s.host.handoverAt + 100 * 1000 * s.mc.clock ≤ s.time) ∧
    (let s := labHost (1000 * 1000 * 1900) fun h => { h with ports := [(0, { Port.reset with downAt := some 0 })] };
      (s.port s.host.owner).downAt = some 0 ∧ s.host.owned = true ∧ 0 + 1000 * 1000 * s.mc.clock ≤ s.time) ∧
    ((labPort true).port 0).downAt = none ∧
    (((labCmd 1 (reqOf 0 []) true).port 0).busy = true ∧ ((labPort true).port 0).busy = false ∧
      ((labPort true).port 0).request.length = 256 ∧ (labPort true).part? 0 ≠ none ∧ ((labPort true).page? 0).msg.length = 64 ∧
      ((labPort true).page? 0).busy = false ∧ (labPort true).part? 15 = none) := by decide +kernel

/-- labCmd without a partition. -/
def labBare (code : Nat) (r : List Byte) : State := { labCmd code r true with parts := [] }

/-- The image of a partition that is out. -/
def anImage (checkpoint : Bool) (back : Option (Option Nat)) : Image :=
  { base := 0, bytes := 9, ts := 0, save := 0, checkpoint := checkpoint, byResume := false, back := back }

/-- labCmd with its partition out. -/
def labOut (code : Nat) (r : List Byte) : State :=
  (labCmd code r true).modPart 0 fun p => { p with out := some (anImage false none) }

theorem witness_PartitionCommands_taken :
    ((labCmd 1 (reqOf 0 []) true).host.order.head? = some 0 ∧ ((labCmd 1 (reqOf 0 []) true).port 0).busy = true ∧
      ((labCmd 1 (reqOf 0 []) true).port 0).mbxcmd = 1 ∧ ((labPort true).port 0).busy = false ∧
      ((labCmd 1 (reqOf 0 []) true).port 0).cmdOwned = true ∧ ((labCmd 1 (reqOf 0 []) false).port 0).cmdOwned = false) ∧
    ((reqOf 0 []).length = 256 ∧ lab.mc.meas.length = 8) ∧
    ((labCmd 1 (reqOf 0 []) true).part? (recNat 0 1 (reqOf 0 [])) ≠ none ∧
      (labBare 1 (reqOf 0 [])).part? (recNat 0 1 (reqOf 0 [])) = none ∧ recNat 3 1 (reqOf 0 []) = 0) ∧
    (let r := reqOf 0x0101000001 [0x100000];
      (labCmd 1 r true).part? (recNat 0 1 r) = none ∧ recNat 3 1 r = 1 ∧ recNat 4 1 r = 1 ∧ recNat 8 8 r % 2 ^ 13 = 0 ∧
      recNat 8 8 r + 2 ^ 13 ≤ lab.mc.hbmtop - 0xFD8000000 ∧ ∃ e ∈ (labCmd 1 r true).parts, e.2.px < recNat 1 1 r + recNat 3 1 r ∧
        recNat 1 1 r < e.2.px + e.2.w ∧ e.2.py < recNat 2 1 r + recNat 4 1 r ∧ recNat 2 1 r < e.2.py + e.2.h) ∧
    (let r := reqOf 0x0101000001 [0x100000]; ¬ ∃ e ∈ (labBare 1 r).parts, e.2.px < recNat 1 1 r + recNat 3 1 r) ∧
    (let r := reqOf 0 []; (labOut 7 r).part? (recNat 0 1 r) ≠ none ∧
      ((labOut 7 r).part? (recNat 0 1 r)).map (·.out.isSome) = some true) := by decide +kernel

theorem witness_PartitionCommands_named :
    (let s := (labCmd 3 (reqOf 0 []) true).modPart 0 fun p => { p with request := List.replicate 64 0 };
      (s.part? 0).map (fun p => (p.request.length, p.groups.length)) = some (64, 1)) ∧
    ((lab.part? 0).map (·.out) = some none) ∧
    (let r := reqOf 0 [0xBFFFFF]; 2 ^ 22 < recNat (8 + 8 * 0) 8 r % 2 ^ 22 + recNat (8 + 8 * 0) 8 r / 2 ^ 22 % 2 ^ 22) ∧
    (let r := reqOf 0 [0x7FFFFF];
      ∀ i < 16, recNat (8 + 8 * i) 8 r % 2 ^ 22 + recNat (8 + 8 * i) 8 r / 2 ^ 22 % 2 ^ 22 ≤ 2 ^ 22) ∧
    (recNat 6 2 (reqOf 0x0040000000000000 []) = 0x040 ∧ recNat 6 2 (reqOf 0x0001000000000000 []) = 0x001 ∧
      (lab.partAt ((lab.curPart.cols).headD 0)).map (·.1) = some 0) ∧
    (let r := reqOf 0x0007FFFFFFFF0000 []; recNat 6 2 r = 0x007 ∧ recNat 2 2 r = 0xFFFF ∧ recNat 4 1 r = 0xFF ∧ recNat 5 1 r = 0xFF ∧
      lab.curPart.px + lab.curPart.w ≤ 24 ∧ lab.curPart.py + lab.curPart.h ≤ 35) ∧
    (let r := reqOf 0x000703074EBF0000 []; recNat 2 2 r = 20159 ∧ lab.curPart.hasCol 20159 = true ∧ recNat 4 1 r = 7 ∧ recNat 5 1 r = 3) ∧
    (let r := reqOf 0x000703084EC00000 []; recNat 2 2 r ≠ 0xFFFF ∧ lab.curPart.hasCol (recNat 2 2 r) = false ∧ 8 ≤ recNat 4 1 r) ∧
    ((∀ g ∈ lab.curPart.groups, g.tgid ≠ recNat 2 2 (reqOf 0x90000 [])) ∧ ∃ g ∈ lab.curPart.groups, g.tgid = recNat 2 2 (reqOf 0x10000 [])) ∧
    (lab.mc.hbmtop < recNat 0 8 (reqOf (2 ^ 41) []) + recNat 8 8 (reqOf (2 ^ 41) []) ∧
      recNat 0 8 (reqOf 0x200000 [64]) + recNat 8 8 (reqOf 0x200000 [64]) ≤ lab.mc.hbmtop ∧
      (0 : BitVec 64).toNat < { Mc.reset with secver := 1 }.secver ∧ lab.mc.secver ≤ (0 : BitVec 64).toNat) ∧
    0x0A ∉ ([1, 2, 3, 4, 5, 6, 7, 8, 9, 0x10, 0x11, 0x20, 0x21, 0x22, 0x23, 0x24, 0x30, 0x31, 0x32] : List Nat) := by
  decide +kernel

/-- A partition of one cluster, and State.reset with it and no task. -/
def tiny : Part := { Part.placed with w := 1, h := 1 }
def labTiny (p : Part) (time : Nat) : State := { State.reset with parts := [(0, p)], time := time }

theorem witness_GangSwitches_requests :
    (let r := reqOf 0x100 [0x400000]; (labCmd 4 r true).underWay 0 = false ∧ recNat 1 1 r = 1 ∧ recNat 8 8 r % 2 ^ 21 = 0 ∧
      recNat 8 8 r + 0x10000 + 0x200000 * (24 * (24 * 35)) ≤ lab.mc.hbmtop ∧ (lab.part? 0).map (·.switchReq) = some none) ∧
    (recNat 8 8 (reqOf 0 [8]) % 2 ^ 21 ≠ 0 ∧ 1 < recNat 1 1 (reqOf 0x200 []) ∧ (lab.part? 1) = none) ∧
    ((labOut 5 (reqOf 0 [])).part? 0).map (·.out) = some (some (anImage false none)) ∧
    (recNat 16 8 (reqOf 0 [0x400000, 0]) = 0 ∧ recNat 16 8 (reqOf 0 [0x400000, 7]) ≠ 0) := by decide +kernel

theorem witness_GangSwitches_switchOut :
    (let p := { tiny with slice := some ⟨0, 9, 0, 9, none⟩ };
      (labTiny p 9).part? (0 : BitVec 4).toNat = some p ∧ p.out = none ∧ p.switchReq = none ∧ 0 + 9 ≤ (labTiny p 9).time ∧
      (labTiny p 8).time < 0 + 9) ∧
    (tiny.slice = none ∧ tiny.switchReq = none) ∧
    (let p := { tiny with switchReq := some ⟨true, 0x400000, 5, none⟩ };
      (labTiny p 5).part? (0 : BitVec 4).toNat = some p ∧ p.out = none ∧ 5 ≤ (labTiny p 5).time ∧ p.calm ≤ 5 ∧
      (labTiny p 5).calmPart 0 = true ∧ ((labTiny p 5).parts.map (·.1)).Pairwise (· < ·) ∧ p.px + p.w ≤ 24 ∧ p.py + p.h ≤ 35 ∧
      0x400000 % 2 ^ 21 = 0 ∧ 0x400000 + imageSize p ≤ 2 ^ 41 ∧ Memory.wf (labTiny p 5).mem = true ∧ (labTiny p 4).time < 5) ∧
    (∀ p k, ((labTiny p 5).slot k).flight = []) ∧ ∀ p c, ((labTiny p 5).core c).view = [] :=
  ⟨by decide, by decide, by decide, fun _ _ => rfl, fun _ _ => rfl⟩

/-- A partition of no cluster that is out, so that its image is the header alone, and its header as it was written. -/
def away (checkpoint : Bool) (back : Option (Option Nat)) : Part :=
  { Part.placed with w := 0, h := 0, out := some (anImage checkpoint back) }
def header : Memory := Memory.writeAll [] 0 ((List.range 0x10000).map (opaqueByte 9))

theorem mem_upFrom {k n : Nat} : ∀ {lo : Nat}, k ∈ upFrom lo n → lo ≤ k ∧ k < lo + n := by
  induction n with
  | zero => intro lo h; simp [upFrom] at h
  | succ n ih =>
    intro lo h
    rcases List.mem_cons.1 h with rfl | h
    · omega
    · have := ih h; omega

theorem opaqueAreas_away (c : Bool) (b : Option (Option Nat)) : opaqueAreas (away c b) 0 = [(0, 0x10000)] := rfl

theorem intact_header (s : State) (c : Bool) (b : Option (Option Nat)) :
    State.intact { s with mem := header } (away c b) (anImage c b) = true := by
  simp only [State.intact, anImage, opaqueAreas_away, List.all_cons, List.all_nil, Bool.and_true, List.all_eq_true]
  intro k hk
  have h := mem_upFrom hk
  have hr : Memory.read header (0 + k) = _ := read_writeAll_in (m := []) rfl (by simpa using h.2)
  simp only [Nat.zero_add] at hr
  simp only [beq_iff_eq, hr, List.getElem_map, List.getElem_range]

theorem altered_header (s : State) (c : Bool) (b : Option (Option Nat)) :
    State.intact { s with mem := Memory.write (opaqueByte 9 0 + 1) [] 0 } (away c b) (anImage c b) = false := by
  have h0 : (0 : Nat) ∈ upFrom 0 0x10000 := List.mem_cons_self
  have hr : Memory.read (Memory.write (opaqueByte 9 0 + 1) [] 0) 0 = opaqueByte 9 0 + 1 := read_write_same rfl _ _
  simp only [State.intact, anImage, opaqueAreas_away, List.all_cons, List.all_nil, Bool.and_true]
  rw [List.all_eq_false]
  refine ⟨0, h0, ?_⟩
  rw [hr]
  simp

theorem witness_GangSwitches_switchIn :
    (∀ c b, (labTiny (away c b) 0).part? (0 : BitVec 4).toNat = some (away c b) ∧ (away c b).out = some (anImage c b) ∧
      (anImage c b).back = b) ∧
    (∀ c b, State.intact { labTiny (away c b) 0 with mem := Memory.write (opaqueByte 9 0 + 1) [] 0 } (away c b) (anImage c b) =
      false) ∧
    (∀ c b, State.intact { labTiny (away c b) 0 with mem := header } (away c b) (anImage c b) = true) ∧
    ((away true none).px + (away true none).w ≤ 24 ∧ (away true none).py + (away true none).h ≤ 35 ∧
      0 + imageSize (away true none) ≤ 2 ^ 41 ∧ (lab.part? 0).map (·.out) = some none) ∧
    Memory.wf header = true ∧ ∀ p k, ((labTiny p 0).slot k).log.entries = [] ∧ ((labTiny p 0).slot k).spilled = [] :=
  ⟨fun _ _ => ⟨rfl, rfl, rfl⟩, fun _ _ => altered_header _ _ _, fun _ _ => intact_header _ _ _, by decide,
    wf_writeAll rfl _ _, fun _ _ => ⟨rfl, rfl⟩⟩

theorem witness_ModuleAndOutside_commands :
    (lab.mc.staged = none ∧ { Mc.reset with staged := some (1, 2) }.staged ≠ none ∧ lab.time < 2 ^ 64 ∧ lab.mc.clock < 2 ^ 16 ∧
      lab.mc.softErrors < 2 ^ 64 ∧ lab.mc.poisonLines < 2 ^ 64) ∧
    (20159 < recNat 0 2 (reqOf 20160 []) ∧ recNat 0 2 (reqOf 20159 []) ≤ 20159 ∧
      recNat 0 2 (reqOf 20159 []) ∉ lab.mc.unplaced ∧ recNat 0 2 (reqOf 7 []) ∈ { Mc.reset with unplaced := [7] }.unplaced) ∧
    (let m := { Mc.reset with marginLog := [⟨5, 20159, 7, 3, 31, false⟩] };
      m.marginLog[recNat 0 8 (reqOf 0 []) + 0]? = some ⟨5, 20159, 7, 3, 31, false⟩ ∧
      m.marginLog.length ≤ recNat 0 8 (reqOf 0 []) + 0 + 4096 ∧ m.marginLog[recNat 0 8 (reqOf 0 []) + 1]? = none) ∧
    (let m := { Mc.reset with qrecs := [List.replicate 32 1] };
      (∀ q ∈ m.qrecs, q.length = 32) ∧ m.qrecs[recNat 0 4 (reqOf 0 []) + 1 - 1]? = some (List.replicate 32 1)) ∧
    (23 < recNat 0 1 (reqOf 24 []) ∧ 31 < recNat 1 1 (reqOf 0x2000 []) ∧ ¬ 23 < recNat 0 1 (reqOf 0x1F17 []) ∧
      ¬ 31 < recNat 1 1 (reqOf 0x1F17 [])) ∧
    (24000 ≤ recNat 0 4 (reqOf 24000 []) ∧ recNat 0 4 (reqOf 45000 []) ≤ 45000 ∧ recNat 0 4 (reqOf 0 []) = 0 ∧
      (0 < recNat 0 4 (reqOf 23999 []) ∧ recNat 0 4 (reqOf 23999 []) < 24000 ∧ 45000 < recNat 0 4 (reqOf 45001 []))) := by
  decide +kernel

theorem witness_ModuleAndOutside_repairs (row : Nat × Nat) :
    lab.mc.softLeft row = true ∧ lab.mc.fuseLeft row = true ∧
    (lab.mc.hardRepairs.filter fun x => x.1 / 32 == row.1 / 32).length < 64 ∧
    64 ≤ (({ Mc.reset with hardRepairs := List.replicate 64 row }.hardRepairs).filter fun (x : Nat × Nat) => x.1 / 32 == row.1 / 32).length ∧
    Mc.softLeft { Mc.reset with softRepairs := List.replicate (1 + Config.softSpares row.1 (Config.bankOf row.2)) row } row =
      false := by
  refine ⟨?_, ?_, ?_, ?_, ?_⟩
  · simp [Mc.softLeft, inBank, show lab.mc = Mc.reset from rfl, Mc.reset]
  · simp [Mc.fuseLeft, inBank, show lab.mc = Mc.reset from rfl, Mc.reset]
  · simp [show lab.mc = Mc.reset from rfl, Mc.reset]
  · simp
  · simp [Mc.softLeft, inBank]

/-- lab with the MC changed, at a time. -/
def labMc (time : Nat) (f : Mc → Mc) : State := { lab with mc := f lab.mc, time := time }

theorem witness_ModuleAndOutside_rest :
    (lab.mc.lastClock + 1000 * lab.mc.clock ≤ (labMc 1900000 id).time ∧ ¬ lab.mc.lastClock + 1000 * lab.mc.clock ≤ lab.time ∧
      (∀ e ∈ (labMc 1900000 id).cores, e.2.phase = none) ∧ ∃ e ∈ labPhase.cores, e.2.phase ≠ none) ∧
    (lab.mc.stopped = false ∧ (∃ x ∈ (labMc 0 fun m => { m with temps := [116] }).mc.temps, 115 < x) ∧
      ¬ ∃ x ∈ lab.mc.temps, 115 < x) ∧
    (let s := labMc 0 fun m => { m with activate := true, staged := some (3, 4) }; s.mc.activate = true ∧ s.mc.staged = some (3, 4)) ∧
    lab.mc.activate = false ∧ (((labPort true).port 0).up = true ∧ ¬ (lab.port 0).up = true) ∧
    (lab.mc.meas.length = 8 ∧ lab.host.epoch < 2 ^ 32 ∧ lab.mc.secver < 2 ^ 32) ∧
    (far1.getLsbD 41 = true ∧ ((labFar 0).partAt (far1.toNat % 2 ^ 41 / 2 ^ 26)).map (·.1) = some 0 ∧
      (labFar 0).target (labFar 0).curPart (2 ^ 20) far1 = some (.spad 1 0 0) ∧ (labFar 0).permitsOthers 1 [5] 0 4096 = true ∧
      (labFar 0).permitsOthers 1 [6] 0 4096 = true ∧ (labFar 0).permitsOthers 1 [5, 6] 0 8 = true ∧ far1.toNat % 8 = 0 ∧
      (labFar 0).curPart.out = none ∧ Memory.wf (labFar 0).mem = true) ∧
    ((0x4000 : Word).toNat / 2 ^ 22 % 2 ^ 16 = 0 ∧ (lab.part? ((0x4000 : Word).toNat / 2 ^ 38 % 2 ^ 4)).isSome ∧
      (List.replicate 96 (0 : Byte)).length = 96) := by decide +kernel

theorem witness_DecodedIsWellFormed :
    decodeBundle 0x10394C0884188028 = .ok (.addi 3 2 40, some (.fadd 1 7 5 6 0)) := by decide

theorem witness_DecodeEncodeRoundTrip :
    ((Instr.add 3 1 2).wellFormed = true ∧ (Instr.add 3 1 2).isSyllable = true) ∧
    ((Instr.addi 3 2 40).wellFormed = true ∧ (Instr.fadd 1 7 5 6 0).wellFormed = true ∧
      encodePair (.addi 3 2 40) (.fadd 1 7 5 6 0) = some 0x10394C0884188028) := by decide

/-- lab with a bundle at its pc. -/
def labAt (bits : Nat) : State := lab.poke 0x200000 bits

theorem witness_StepRunsDecodedInstruction :
    (({ lab with inputs := [.event .softErrorCorrected] }).inputs = .event .softErrorCorrected :: [] ∧
      opcode .softErrorCorrected = none) ∧
    (lab.inputs = [] ∧ lab.turnOf = some 0 ∧ (lab.core 0).issuing.isSome = true ∧ lab.canIssue 0 = true) ∧
    ((lab.takeUpSlot 0).me.redo = none ∧ (lab.takeUpSlot 0).strefusedDue (lab.takeUpSlot 0).cur = false) ∧
    ((labT fun t => { t with pc := 0x40 }).takeUpSlot 0).myTarget 0x40 = some (.spad 0 0 0x40) ∧
    ((labAt 0).takeUpSlot 0).myTarget ((labAt 0).takeUpSlot 0).me.pc = some .hbm ∧
    (decodeBundle 0 = .error .major ∧ ((labAt 0).takeUpSlot 0).gangOf 0 = none) := by decide

/-- A test on the next state of a step. -/
def next (o : Host.Outcome State Fault Refusal) (p : State → Bool) : Bool :=
  match o with
  | .next t => p t
  | _ => false

theorem witness_StepRunsDecodedInstruction_bundles :
    walked (((labAt 0).takeUpSlot 0).translate 0 ((labAt 0).takeUpSlot 0).curPart 0x200000 .fetch) = true ∧
    decodeBundle 0x41184400 = .ok (.add 3 1 2, none) ∧
    decodeBundle 0x10394C0884188028 = .ok (.addi 3 2 40, some (.fadd 1 7 5 6 0)) ∧
    next (exec (.addi 3 2 40) lab) (fun t => t.flow == .seq) = true ∧
    next (exec .eret lab) (fun t => t.flow == .trapped) = true ∧
    next (exec (.recv 3) lab) (fun t => t.flow == .held) = true ∧
    next (exec .tend lab) (fun t => t.flow == .ended) = true := by decide

theorem witness_MemoryKeepsCanonicalForm : Memory.wf State.reset.mem = true ∧ ∃ t, step State.reset = .next t :=
  ⟨rfl, _, rfl⟩

theorem witness_StepNeverStops :
    TapeOk { lab with inputs := [.event .softErrorCorrected, .turn 0] } = true ∧
    (({ lab with inputs := [.event .cnop] }).inputs = .event .cnop :: [] ∧ (opcode .cnop).isSome = true) := by decide

theorem witness_LaunchesStartsAndWakes_conditions :
    (∀ c ∈ [Cond.answer 0, .answer 1, .flagSeen 7, .flagWord 0x200040 1, .phase, .entries, .release, .logRoom, .fence aTok,
        .lines none, .removed, .migration 8, .gang 3 1],
      ((labAsleep c).slot 0).status = .asleep ∧ (labAsleep c).isOut 0 = false ∧ ((labAsleep c).slot 0).cond = c) ∧
    ((ent 1 .sent).unanswered = true ∧ (ent 1 .accepted).unanswered = false ∧ (ent 1 .accepted).settled = false) ∧
    (let s := ({ lab with gangs := [pair] }).modSlot 0 fun t => { t with wd := 2 ^ 21 };
      s.ledBy 0 = [0, 4] ∧ (∀ k ∈ s.ledBy 0, (s.slot k).flight = [] ∧ (s.core (coreOf k)).phase = none) ∧
        pair ∈ s.gangs ∧ pair.members.head? = some 0 ∧ (∀ h ∈ s.gangs, h.members.head? = some 0 → h = pair)) := by
  decide

theorem witness_ReliabilityEvents_places :
    ((labPhase.core 0).phase ≠ none ∧ labPhase.coreBusy 0 = true) ∧
    (((labWait [] [aLine] 0 0).core 0).view[0]? = some aLine ∧ ((labWait [] [aLine] 0 0).core 0).view[1]? = none) ∧
    ((labLog [ent 1 .accepted] 1).slot 0).log.entries.find? (fun e => e.seq == 1 && !e.settled) = some (ent 1 .accepted) ∧
    (∀ e ∈ ((labLog [ent 1 .crystallised] 1).slot 0).log.entries, e.seq = 1 → e.settled = true) ∧
    (State.reset.partAt 20159 = none ∧ 20159 ∉ State.reset.lost) ∧
    (let s := labP fun p => { p with groups := [] };
      (s.spareBlock 0).isSome = true ∧ s.lost = [] ∧ (∀ e ∈ s.cores, e.2.failing = false) ∧
        (s.mc.moved.map (·.1)).Pairwise (· < ·)) := by decide +kernel

theorem witness_HostPortsAndOwnership_bytes :
    ((labPort true).hostByte 0 0x200000 64 = some 0x200000 ∧ (labPort true).hostByte 0 0x1BF00000000 1 = none ∧
      (labPort true).hostByte 1 0x200000 64 = none ∧ (labPort true).host.waiting = [] ∧
      (labPort true).channelHeld (channelOf 0x200000) = false) ∧
    { labPort true with mc := { Mc.reset with repairing := [(channelOf 0x200000, 1)] } }.channelHeld (channelOf 0x200000) = true ∧
    (∀ b ∈ [none, some (List.replicate 64 (1 : Byte))], (labHost 0 fun h => { h with waiting := [⟨0, 0x200000, 0x200000, 64, b, .port⟩] }).host.waiting =
      ⟨(0 : BitVec 3).toNat, 0x200000, 0x200000, 64, b, .port⟩ :: []) ∧
    0x200000 + 64 ≤ (labPort true).mc.hbmtop ∧ (List.replicate 64 (1 : Byte)).length = 64 := by decide +kernel

theorem witness_HostPortsAndOwnership_rounds :
    (let s := labHost 1899 fun h => { h with ownWrites := [⟨0, 1, 0, 1900⟩] };
      ∀ w ∈ s.host.ownWrites, w.port ≠ (0 : BitVec 3).toNat ∨ s.time < w.ends) ∧
    (∀ op ∈ [1, 2, 3, 4], ∀ own ∈ [true, false],
      let s := labHost 1900 fun h => { h with owned := own, ownWrites := [⟨2, op, 0, 1900⟩, ⟨0, op, 0, 1900⟩] };
      s.host.nextOwn = some ⟨0, op, 0, 1900⟩ ∧ (1900 ≤ s.time) ∧ s.host.owned = own) ∧
    (let s := labHost 1900 fun h => { h with ownWrites := [⟨0, 3, 2, 1900⟩] };
      s.host.nextOwn = some ⟨0, 3, (2 : BitVec 3).toNat, 1900⟩ ∧ (2 : BitVec 3) ≠ 0) ∧
    (let p := { Port.reset with up := true, msixOn := true, msix := [] }; p.masked 0 = false) ∧
    (∀ b ∈ [0, 1, 2, 0x73, 4, 5, 7], ([BitVec.ofNat 8 b, 0, 0, 0] : List Byte).length = 4) := by decide +kernel

theorem witness_PartitionCommands_work :
    (let s := { labCmd 2 (reqOf 0 []) true with copies := [aCopy [] false] };
      ∃ c ∈ s.copies, lab.curPart.hasSlot c.slot = true) ∧ lab.curPart.out = none ∧
    (lab.copies = [] ∧ lab.jobs = [] ∧ lab.masks = [] ∧ ∀ e ∈ lab.slots, e.2.log.entries = []) ∧
    (let r := reqOf 0x200000 [64]; recNat 0 8 r + recNat 8 8 r ≤ lab.mc.hbmtop) := by decide +kernel

theorem witness_GangSwitches_slices :
    (let p := { tiny with slice := some ⟨0, 9, 0, 9, some 7⟩ }; p.slice = some ⟨0, 9, 0, 9, some 7⟩ ∧ p.switchReq = none ∧
      p.nextSwitch = some ⟨false, 0, 7, none⟩) ∧
    (let p := { tiny with slice := some ⟨0, 9, 0, 9, some 7⟩, switchReq := some ⟨true, 0x400000, 7, some 2⟩ };
      p.switchReq = some ⟨true, 0x400000, 7, some 2⟩ ∧ p.nextSwitch = some ⟨true, 0x400000, 7, some 2⟩) ∧
    (let p := { tiny with slice := some ⟨0, 9, 0, 9, some 7⟩, switchReq := some ⟨true, 0x400000, 8, some 2⟩ };
      p.switchReq = some ⟨true, 0x400000, 8, some 2⟩ ∧ p.nextSwitch = some ⟨false, 0, 7, none⟩) ∧
    (let p := { tiny with switchReq := some ⟨true, 0x400000, 5, none⟩, calm := 9 };
      (labTiny p 5).time < p.calm + 64 ∧ (labTiny p 5).partAwaits 0 = false ∧ (labTiny p 5).repairRuns = false ∧
        (labTiny p 5).jobs = []) ∧
    ({ labTiny tiny 0 with mc := { Mc.reset with repairing := [(0, 1)] } }.repairRuns = true) ∧
    (∀ b ∈ [none, some none, some (some 3)], ((anImage false b).back = b)) := by decide +kernel

theorem witness_KillsInvalidationsAndEnds_waits :
    (let s := (labKill [Group.placed] 0x200000).modMe fun t => { t with redo := some (aRedo (.tinv 1 2) .removed) };
      s.me.redo ≠ none ∧ s.me.sup = true ∧ s.rs 2 ≠ 0) ∧
    (let s := labKill [Group.placed] 0x200000; s.me.redo = none ∧ (s.slots.map (·.1)).Pairwise (· < ·)) ∧
    ((labLog [{ ent 1 .sent with pages := [(0x200000, 0x2000)] }] 1).slot 0).log.entries.any
      (fun e => e.pages.any fun p => decide (0x200000 < p.1 + p.2) && decide (p.1 < 0x210000)) = true ∧
    (let s := (labT fun t => { t with trap := { t.trap with status := 1 }, quar := true }); s.me.sup = true ∧ s.me.quar = true) ∧
    (let s := labCore fun c => { c with phase := some { aPhase with sends := [⟨3, 1, 0, 0, 1, 0, none⟩] } };
      s.me.quar = false ∧ s.inPhase = true ∧ s.phaseDone (coreOf s.cur) s.myCore.now = false) ∧
    (let s := labWait [ent 1 .sent] [] 0 0; s.inPhase = false ∧ s.me.flight = [] ∧ s.me.quar = false ∧
      s.me.log.entries = [ent 1 .sent] ∧ s.answerAll s.cur (ent 1 .sent).raw (ent 1 .sent).cells = none) := by
  decide +kernel

theorem witness_ModuleAndOutside_busy :
    (let m := { Mc.reset with repairing := [(0, 1)] };
      (∃ x ∈ m.repairing, x.1 / 32 = recNat 0 1 (reqOf 0 []) ∧ lab.time < x.2) ∧ ¬ ∃ x ∈ m.repairing, x.1 / 32 = recNat 0 1 (reqOf 1 [])) ∧
    (let b := bytesOf 1 0x10 ++ bytesOf 16 5; b.length = 17 ∧ b.getD 0 0 = 0x10) ∧
    (∃ p, (labFar 0).partAt (far1.toNat % 2 ^ 41 / 2 ^ 26) = some (0, p) ∧ p.out = none ∧
      (labFar 0).target p (2 ^ 20) far1 = some (.spad 1 0 0) ∧ 1 / 8 ∉ (labFar 0).mc.unplaced) :=
  ⟨by decide, by decide, _, rfl, rfl, by decide, by decide⟩

/-- A test on the walk that finds no page. -/
def paged : Walk → Bool
  | .page _ _ => true
  | _ => false

theorem paged_of {w : Walk} (h : paged w = true) : ∃ level node, w = .page level node := by
  cases w <;> first | exact ⟨_, _, rfl⟩ | cases h

theorem witness_StepRunsDecodedInstruction_turns :
    (lab.myGang = none ∧ lab.me.status ≠ .free) ∧
    (let s := labT fun t => { t with redo := some (aRedo .cnop .work) };
      (s.takeUpSlot 0).me.redo = some (aRedo .cnop .work) ∧
        next (exec .cnop ({ s.takeUpSlot 0 with ir := 0, flow := .seq }.modMe fun t => { t with regs := Regs.start })) fun _ => true) ∧
    (let u := labRefused.takeUpSlot 0; u.me.redo = none ∧ u.together.find? u.strefusedDue = some 0) ∧
    ((∀ k ∈ (lab.takeUpSlot 0).together, (lab.takeUpSlot 0).strefusedDue k = false) ∧ lab.nextEvent = none) ∧
    (let s := { lab with gangs := [pair] }; s.myGang = some pair ∧ s.together = [0, 4]) ∧
    (let s := (labT fun t => { t with pc := col0 });
      s.myTarget col0 = some (.col 0 0x40) ∧ s.lost.contains 0 = false) ∧
    (labMig.translate 0 labMig.curPart 0x200000 .fetch = .mig ∧
      (lab.poke 0x101100 0x4000014B).translate 0 lab.curPart 0x200000 .fetch = .prot ∧
      ∃ level node, lab.translate lab.myPart lab.curPart 0x210000 .fetch = .page level node) := by
  refine ⟨by decide +kernel, by decide +kernel, by decide +kernel, by decide +kernel, by decide +kernel, by decide +kernel,
    by decide +kernel, by decide +kernel, paged_of (by decide +kernel)⟩

theorem witness_VectorRandomAndMx :
    (let s := labV 0x40400000 0x3F800000 0; s.lane 32 0 1 = 0x40400000 ∧
      ∀ z ∈ ((List.range 32).map fun j => s.lane 32 (j % 16) (if j < 16 then 1 else 2)).map fmtF32.decode, z.isFin = true) ∧
    0 < min ((lab3 5 0 0).rs 1).toNat (2 ^ 32) ∧ (fmtF32.decode 0x40400000).toRat ≠ 0 := by
  refine ⟨by decide +kernel, by decide, ?_⟩
  rw [show fmtF32.decode 0x40400000 = .fin false 12582912 (-22) by decide]
  norm_num [Val.toRat]

theorem witness_BundleGoesOn_nests :
    ((labLoops [⟨0x1FFFF8, 0x200000, 2⟩] (.taken 0x200040 false)).flow = .taken 0x200040 false ∧
      (labLoops [⟨0x1FFFF8, 0x200000, 2⟩] (.taken 0x200040 true)).flow = .taken 0x200040 true) ∧
    (let s := labLoops [⟨0x1FFFF8, 0x200000, 2⟩, ⟨0x1FFFF0, 0x200008, 3⟩] (.taken 0x200040 true);
      let inside := fun (l : LoopEntry) (a : Word) => l.start.toNat ≤ a.toNat ∧ a.toNat ≤ l.last.toNat;
      s.me.loops = [⟨0x1FFFF8, 0x200000, 2⟩, ⟨0x1FFFF0, 0x200008, 3⟩] ∧ inside ⟨0x1FFFF8, 0x200000, 2⟩ s.me.pc ∧
        ¬ inside ⟨0x1FFFF8, 0x200000, 2⟩ 0x200040 ∧ inside ⟨0x1FFFF8, 0x200000, 2⟩ 0x1FFFF8 ∧
        ¬ inside ⟨0x200008, 0x200010, 2⟩ s.me.pc) ∧
    ((labLoops [⟨0x1FFFF8, 0x200000, 1⟩, ⟨0x1FFFF0, 0x200008, 3⟩] .seq).me.loops = [⟨0x1FFFF8, 0x200000, 1⟩, ⟨0x1FFFF0, 0x200008, 3⟩] ∧
      (LoopEntry.mk 0x1FFFF8 0x200000 1).last = (labLoops [] .seq).me.pc ∧ (LoopEntry.mk 0x1FFFF8 0x200000 1).remaining = 1) := by
  decide

/-- R171: district 4 has one to its north, district 0 none. -/
theorem witness_SystemRegisterReads_trunks :
    (0x100 ≤ (0x110 : BitVec 14).toNat ∧ (0x110 : BitVec 14).toNat ≤ 0x15F ∧ ((0x110 : BitVec 14).toNat - 0x100) % 4 = 0 ∧
      4 ≤ ((0x110 : BitVec 14).toNat - 0x100) / 4) ∧
    (let i := (0x100 : BitVec 14).toNat - 0x100;
      ¬ ((i % 4 = 0 ∧ 4 ≤ i / 4) ∨ (i % 4 = 1 ∧ i / 4 % 4 ≠ 3) ∨ (i % 4 = 2 ∧ i / 4 < 20) ∨ (i % 4 = 3 ∧ i / 4 % 4 ≠ 0))) := by
  decide

/-- F32: 2^128, 2^128 − 2^103, 2^128 − 3 · 2^102, 1 and 2^−127, of the cases of a result's size. -/
theorem witness_RoundingOnce_sizes :
    let largest : ℚ := (2 - 2 ^ (-(23 : Int))) * 2 ^ (127 : Int)
    let least : ℚ := 2 ^ (1 - 127 : Int)
    (2 : ℚ) ^ ((127 : Int) + 1) ≤ (1 : Nat) * 2 ^ (128 : Int) ∧
    (largest < (2 ^ 25 - 1 : Nat) * 2 ^ (103 : Int) ∧ ((2 ^ 25 - 1 : Nat) : ℚ) * 2 ^ (103 : Int) < 2 ^ ((127 : Int) + 1) ∧
      largest + 2 ^ ((127 : Int) - 23 - 1) ≤ (2 ^ 25 - 1 : Nat) * 2 ^ (103 : Int)) ∧
    (largest < (2 ^ 26 - 3 : Nat) * 2 ^ (102 : Int) ∧
      ((2 ^ 26 - 3 : Nat) : ℚ) * 2 ^ (102 : Int) < largest + 2 ^ ((127 : Int) - 23 - 1)) ∧
    ((1 : Nat) * (2 : ℚ) ^ (0 : Int) ≤ largest ∧ least ≤ (1 : Nat) * (2 : ℚ) ^ (0 : Int)) ∧
    (1 : Nat) * (2 : ℚ) ^ (-127 : Int) < least := by norm_num

theorem val_cancel : (lab3 one32 0xBF800000 one32).val 1 1 = .fin false 0x800000 (-23) ∧
    (lab3 one32 0xBF800000 one32).val 1 2 = .fin true 0x800000 (-23) ∧
    (lab3 one32 0xBF800000 one32).val 1 3 = .fin false 0x800000 (-23) := by decide

theorem witness_FloatSpecialOperands_zeros :
    ((lab3 0 0x80000000 0).val 1 1 = .fin false 0 (-149) ∧ (lab3 0 0x80000000 0).val 1 2 = .fin true 0 (-149)) ∧
    ((lab3 0x80000000 one32 0).val 1 1 = .fin true 0 (-149) ∧ (lab3 0x80000000 one32 0).val 1 2 = .fin false 0x800000 (-23)) ∧
    (let s := lab3 one32 0xBF800000 one32;
      (s.val 1 1).isFin ∧ (s.val 1 2).isFin ∧ (s.val 1 3).isFin ∧ (s.val 1 1).toRat ≠ 0 ∧ (s.val 1 2).toRat ≠ 0 ∧
        (s.val 1 1).toRat + (s.val 1 2).toRat = 0 ∧ (s.val 1 1).toRat * (s.val 1 2).toRat + (s.val 1 3).toRat = 0) ∧
    ((lab3 one32 one32 one32).val 1 1).toRat - ((lab3 one32 one32 one32).val 1 2).toRat = 0 := by
  refine ⟨by decide, by decide, ⟨by decide, by decide, by decide, ?_, ?_, ?_, ?_⟩, ?_⟩
  · rw [val_cancel.1]; norm_num [Val.toRat]
  · rw [val_cancel.2.1]; norm_num [Val.toRat]
  · rw [val_cancel.1, val_cancel.2.1]; norm_num [Val.toRat]
  · rw [val_cancel.1, val_cancel.2.1, val_cancel.2.2]; norm_num [Val.toRat]
  · rw [val_one.1, val_one.2.1]; norm_num [Val.toRat]

theorem witness_VectorReductions_types : (3 : FTy).toNat < 4 := by decide

theorem witness_VectorRandomAndMx_elements :
    (fmtE4M3.decode 0x7F).isNan = true ∧ fmtE5M2.decode 0xFC = .inf true ∧ fmtE4M3.decode 0x80 = .fin true 0 (-9) ∧
    (fmtE4M3.decode 0x38).isFin = true ∧ (fmtE4M3.decode 0x38).toRat ≠ 0 ∧ (0x7F : Nat) < 2 ^ 8 ∧ (0x7F : Nat) ≠ 0xFF := by
  refine ⟨by decide, by decide, by decide, by decide, ?_, by decide⟩
  rw [show fmtE4M3.decode 0x38 = .fin false 8 (-3) by decide]
  norm_num [Val.toRat]

theorem witness_VectorStores_typed :
    (∃ es, lab.checkElems 0 (classSize 0) .store (wholeElems 0x20040 0 0) = .ok es ∧
      (lab.allLocal es && (match lab.askElems 0 (classSize 0) .query es with | .all _ => true | _ => false) &&
        es.all (fun e => match e.tgt with | .spad _ _ _ => true | _ => false)) = true) ∧
    (∃ es, (lab.poke 0x101100 0x4000134B).checkElems 0 (classSize 0) .store (wholeElems 0x200040 0 0) = .ok es ∧
      ((match (lab.poke 0x101100 0x4000134B).askElems 0 (classSize 0) .query es with | .all _ => true | _ => false) &&
        es.any (fun e => match e.tgt with | .spad _ _ _ => false | _ => true)) = true) ∧
    (∃ es, lab.checkElems 2 (classSize 2) .store (wholeElems 0xC0040 2 0) = .ok es ∧
      (lab.allLocal es && (match lab.askElems 2 (classSize 2) .query es with | .all as => as.length == es.length | _ => false)) = true) ∧
    (lcolOf lab.cur ∉ lab.mc.unplaced ∧ lab.me.log.entries = [] ∧ lab.myCore.view = [] ∧ (0 : BitVec 2) ≠ 3) :=
  ⟨ok_of _ _ (by decide +kernel), ok_of _ _ (by decide +kernel), ok_of _ _ (by decide +kernel), by decide⟩

theorem witness_LocalAtomics_lost :
    (∃ key, (labLost col0).answer col0 (.col 0 0x40) 8 .atomic = .lost key) ∧ (labLost col0).me.log.entries = [] ∧
    (labLost col0).myCore.view = [] := ⟨⟨_, rfl⟩, by decide⟩

theorem witness_ReleasesPublish_lost :
    (labLost col0).flagAt ((labLost col0).rs 1) .atomic = .ok (.col 0 0x40) ∧
    (∃ key, (labLost col0).answer ((labLost col0).rs 1) (.col 0 0x40) 8 .atomic = .lost key) ∧
    (labLost col0).me.log.entries = [] ∧ (labLost col0).myCore.view = [] ∧
    reached (labLost col0).me.log.seq (labLost col0).me.pub = true := ⟨rfl, ⟨_, rfl⟩, by decide⟩

theorem witness_AcquiresAndViews_marks :
    ((lab.modSlot 4 fun t => { Slot.placed t with pubBad := true }).slot 4).pubBad = true ∧
    ∀ k, ∀ e ∈ ((labLog [ent 1 .accepted] 1).slot k).log.entries, e.loose = [] := by
  refine ⟨by decide, fun k => ?_⟩
  rcases Decidable.em (k < 4) with h | h
  · exact (by decide : ∀ k < 4, ∀ e ∈ ((labLog [ent 1 .accepted] 1).slot k).log.entries, e.loose = []) k h
  · rw [show labLog [ent 1 .accepted] 1 = lab.setSlot 0 ((labLog [ent 1 .accepted] 1).slot 0) from rfl,
      State.slot_setSlot_ne _ _ (by omega), show lab = (State.reset.placeBundle 0).setSlot 0 (lab.slot 0) from rfl,
      State.slot_setSlot_ne _ _ (by omega)]
    have h0 : (State.reset.placeBundle 0).slot k = lookup Slot.reset [(0, (State.reset.placeBundle 0).slot 0)] k := rfl
    rw [h0, lookup, if_neg (by omega)]
    split <;> exact fun _ h => nomatch h

theorem witness_FencesWaitsAndHints_homes :
    (labTok .accepted).canWrite (ent 1 .accepted) ∧ lab.host.waiting = [] := by
  unfold State.canWrite
  decide

theorem witness_LogQueries_pans :
    (labLog [ent 1 .accepted] 1).canWrite (ent 1 .accepted) ∧
    ∀ x ∈ (labLog [ent 1 .sent] 1).me.log.entries, (labLog [ent 1 .sent] 1).me.log.pan < x.pan + 11 := by
  unfold State.canWrite
  decide

/-- An entry of two bytes with two homes. -/
def ent2 (seq : Nat) (st : EntryState) : Entry :=
  { ent seq st with va := 0x201000, cells := [(0x201000, 1), (0x201001, 2)], homes := [0x201000, 0x201001] }

/-- One of two bytes in the memory of column 0, in a bank that ent's is not in. -/
def col2 : Entry := { ent 2 .accepted with va := col0, cells := [(col0, 1), (col0 + 1, 2)], homes := [colKey 0 0x40, colKey 0 0x41] }

/-- Accesses that wait for a channel, y before the slot's own x. -/
def waitsAhead : List HostAccess := [⟨0, 0x200040, 0x200040, 8, none, .port⟩, ⟨0, 0x200040, 0x200040, 8, none, .slot 0⟩]

theorem witness_HomeEvents_several :
    (((labLog [ent 1 .sent] 1).slot 0).log.pansHeld < 12 ∧ (ent 1 .sent).loose = [] ∧
      (labLog [ent2 1 .sent] 1).answerAll 0 false (ent2 1 .sent).cells = some (.ok [0x201000, 0x201001]) ∧
      ∀ k ∈ [0x201000, 0x201001], (labLog [ent2 1 .sent] 1).heldHome k = false) ∧
    (let s := labLog [ent 1 .accepted, col2, ent 3 .sent] 3;
      (s.slot 0).log.entries = [ent 1 .accepted] ++ col2 :: [ent 3 .sent] ∧ s.canWrite col2 ∧
        (∀ x ∈ [ent 1 .accepted], x.settled = true ∨ ∀ b ∈ x.banks, b ∉ col2.banks) ∧
        (∀ x ∈ [ent 1 .accepted] ++ [ent 3 .sent], x.forced = false ∧ x.seq ≠ 2) ∧
        (∀ x ∈ [ent 1 .accepted, col2, ent 3 .sent], (s.slot 0).log.pan < x.pan + 11) ∧ Memory.wf s.mem = true) ∧
    (let s : State := { labMig with host := { labMig.host with waiting := waitsAhead } };
      ∃ (i j : Nat) (x y : HostAccess), i < j ∧ s.host.waiting[i]? = some y ∧ s.host.waiting[j]? = some x ∧ y.ni = x.ni ∧
        x.asker = .slot 0 ∧ ∀ z ∈ s.host.waiting.take j, z.asker ≠ .slot 0) ∧
    (¬ ∃ (i j : Nat) (x y : HostAccess), i < j ∧ labMig.host.waiting[i]? = some y ∧ labMig.host.waiting[j]? = some x ∧
      y.ni = x.ni ∧ x.asker = .slot 0 ∧ ∀ z ∈ labMig.host.waiting.take j, z.asker ≠ .slot 0) ∧
    (labRefused.stillOut 0 = false ∧ (labOnFlag 5).stillOut 0 = false) := by
  refine ⟨⟨by decide, rfl, rfl, by decide⟩, ?_, ⟨0, 1, _, _, by decide, rfl, rfl, by decide⟩, ?_, by decide⟩
  · unfold State.canWrite
    decide +kernel
  · rintro ⟨i, j, x, y, -, h, -⟩
    rw [show labMig.host.waiting = [] from rfl] at h
    simp at h

/-- labDeq as a service task, whose record is of a kind and says by its flags byte that a group is charged. -/
def labKind (kind flags : Nat) : State :=
  ((labDeq []).modSlot 3 fun _ => { (labDeq []).slot 0 with sys := { ((labDeq []).slot 0).sys with tgext := 0x10000000 } }).poke
    (spadKey 0 0) (kind + flags * 2 ^ 24)

theorem witness_MessagesAndDelivery_records :
    (let s := { labKind 5 0x52 with cur := 3 };
      s.me.inboxOn = true ∧ s.me.ringHeld ≠ 0 ∧ s.me.redo = none ∧ (s.mem.read (s.ringKey s.cur s.me.ringHead)).toNat = 5 ∧
        s.cur % 4 = 3 ∧ recNat 3 1 (s.ringBytes s.cur s.me.ringHead 32) / 2 % 2 = 1) ∧
    (let s := labKind 1 0;
      s.me.redo = none ∧ (s.mem.read (s.ringKey s.cur s.me.ringHead)).toNat = 1 ∧
        recNat 3 1 (s.ringBytes s.cur s.me.ringHead 32) / 2 % 2 = 0) ∧
    ((msgTo 0x400001 32).born ≤ (labMsg [msgTo 0x400001 32]).time ∧ ∀ x ∈ (labMsg [msgTo 0x400001 32]).msgs, x.old = false) := by
  decide

/-- labDue with a trap vector, bits in CHKINT, the tries of its member and the lost columns of its barrier group. -/
def labOutcome (chk : Word) (lost : List Nat) : State :=
  (labDue chk).modPart 0 fun p => { p with trapvec := 0x300001, bars := if lost = [] then [] else [(0, { Bar.reset with lostCols := lost })] }

theorem witness_BarrierOutcomes_errors :
    (let s := labOutcome 0x200000002 [];
      (s.slots.map (·.1)).Pairwise (· < ·) ∧ (s.parts.map (·.1)).Pairwise (· < ·) ∧ s.barrierDue 0 0 = true ∧ s.lost = [] ∧
        (∀ e ∈ s.cores, e.2.failing = false) ∧
        (∀ k ∈ s.members 0 0, (s.slot k).log.entries = [] ∧ (s.core (coreOf k)).view = []) ∧
        s.checkBits 0 0 ≠ 0 ∧ (s.checkBits 0 0).getLsbD 3 = false ∧
        (∀ k ∈ s.members 0 0, (s.slot k).sys.chkint.getLsbD 16 = false) ∧ 2 ≤ s.maxTries (s.members 0 0) ∧
        (s.services 0 fun t => t.charged.contains 0) = [] ∧ s.undoHeld 0 0 = false ∧
        ∀ k ∈ s.members 0 0, (((s.part? (s.partNoOf k)).map Part.trapvec).getD 0).getLsbD 0 = true ∧
          ((s.slot k).backTo).flight = []) ∧
    (let s := labOutcome 0x10002 [];
      s.barrierDue 0 0 = true ∧ s.checkBits 0 0 ≠ 0 ∧ (s.checkBits 0 0).getLsbD 3 = false ∧ 0 ∈ s.members 0 0 ∧
        (s.slot 0).sys.chkint.getLsbD 16 = true ∧
        ((s.part? 0).bind fun p => p.groups.find? fun y => y.tgid == Group.placed.tgid) = some Group.placed ∧
        ∀ j ∈ s.members 0 0, (s.slot j).tgid = Group.placed.tgid) ∧
    (let s := labOutcome 8 [5];
      s.barrierDue 0 0 = true ∧ (s.checkBits 0 0).getLsbD 3 = true ∧ (s.barOf 0 0).lostCols = 5 :: [] ∧
        ∀ k ∈ s.members 0 0, (((s.part? (s.partNoOf k)).map Part.trapvec).getD 0).getLsbD 0 = true ∧
          (s.slot k).sup = false ∧ (s.slot k).flight = [] ∧ (s.slot k).redo = none) := by
  decide +kernel

theorem witness_CommunicationPhase_ends :
    (let s := labFlits { aPhase with ending := true } [] (2 ^ 20); (s.core 0).phase = some { aPhase with ending := true }) ∧
    (aPhase.ending = false ∧
      (labFlits aPhase [{ aFlit none true with orphan := true }] 8).flits.find? (fun f => f.notice && coreOf f.src == 0) =
        some { aFlit none true with orphan := true }) ∧
    (labIn { aPhase with windows := [⟨0, 9, 1, 0, 1, 0, none, false⟩] } 0 0 0 0 0).phaseDone 0 0 = false := by decide

/-- The bytes of labLayer's descriptor; a job of a head whose tile is (0, 0), under way with it; and labJobs with that job
alone, the first page of column 0, and there a tile of one connection, of RID 0 and weight 1, in the layer's slot 0. -/
def layerBytes : List Byte :=
  bytesOf 8 0x200000 ++ bytesOf 8 0x200000 ++ bytesOf 8 0x100000001 ++ bytesOf 8 64 ++ bytesOf 8 0x10000 ++
    bytesOf 8 (0x40000 + 2 ^ 40) ++ bytesOf 16 0
def tileJob (head : Nat) : Job := { aJob (jobBytes head 1 0 (2 ^ 96)) (some (0, 0)) true false with ldesc := layerBytes }
def withColumn (s : State) : State :=
  ((((((s.poke 0x101000 0x2030040B).poke 0x101800 0x2040040B).poke 0x102000 (2 ^ 59 + 0x34B)).poke (colKey 0 0) 2).poke (colKey 0 0x40)
    0x200080).poke (colKey 0 0x48) 0x10001).poke (colKey 0 0x50) 0x3F800000
def labTile (j : Job) : State := withColumn (labJobs [j] 1 0 0)

theorem witness_MatrixJobs_alone (head : Nat) (h : head ∈ [0x10100, 5, 0x20001, 0x20002, 0x20203, 0x20204]) :
    (labTile (tileJob head)).RunsAlone 0 0 0 (tileJob head) ∧ jobFlags (tileJob head).desc % 4 = 0 := by
  fin_cases h <;> exact ⟨⟨by decide, by decide, by decide, by decide, by decide, by decide, by decide, by decide, by decide, by decide,
    .inr ⟨by decide, by decide, by decide, by decide, fun _ => kept rfl rfl _⟩⟩, by decide⟩

theorem witness_MatrixJobs_kinds :
    (∀ head ∈ [0x10100, 5, 0x20001, 0x20002, 0x20203, 0x20204],
      0 < validRows (tileJob head).geom 0 ∧ 0 < validCols (tileJob head).geom 0 ∧ (tileJob head).ldesc ≠ [] ∧
        Desc.read (tileJob head).ldesc = Desc.read layerBytes) ∧
    (jobKind (tileJob 0x10100).desc = 0 ∧ jobA (tileJob 0x10100).desc = 1 ∧ jobB (tileJob 0x10100).desc = 1) ∧
    (jobKind (tileJob 5).desc = 5 ∧ jobA (tileJob 5).desc = 0 ∧ jobB (tileJob 5).desc = 0 ∧ jobTile (tileJob 5).desc % 2 = 0) ∧
    (∀ head ∈ [0x20001, 0x20002], (jobKind (tileJob head).desc = 1 ∨ jobKind (tileJob head).desc = 2) ∧
      jobB (tileJob head).desc = 2) ∧
    (jobKind (tileJob 0x20203).desc = 3 ∧ jobA (tileJob 0x20203).desc = 2 ∧ jobB (tileJob 0x20203).desc = 2) ∧
    (jobKind (tileJob 0x20204).desc = 4 ∧ jobA (tileJob 0x20204).desc = 2 ∧ jobB (tileJob 0x20204).desc = 2 ∧
      32 * 0 + validCols (tileJob 0x20204).geom 0 ≤ (Desc.read layerBytes).cols ∧
      validRows (tileJob 0x20204).geom 0 * validCols (tileJob 0x20204).geom 0 ≤ recNat 0x24 4 (tileJob 0x20204).desc) := by
  decide

theorem witness_MatrixJobs_tiles :
    (∃ x, (labTile (tileJob 0x20001)).engine 0 ((tileJob 0x20001).tiles 0 0 (Desc.read layerBytes) 0) = .ok x ∧
      (x.1 == [[⟨0, 0x3F80, 0⟩]]) = true) ∧
    (∃ x, (labTile (tileJob 0x20203)).engine 0 (Eng.handleTile 0 (Desc.read layerBytes) 0 0 0) = .ok x ∧
      (x.1 == [⟨0, 0x3F80, 0⟩] && match x.2.st.engine 0 (Eng.addGrad 0 ((tileJob 0x20203).writer (labTile (tileJob 0x20203)))
          (Desc.read layerBytes) 0 ((tileJob 0x20203).gradAt (labTile (tileJob 0x20203)) 0 0) 0) with
        | .ok _ => true
        | .error _ => false) = true) ∧
    ∃ x, (labTile (tileJob 0x20204)).engine 0 (Eng.handleTile 0 (Desc.read layerBytes) 0 0 0) = .ok x ∧
      ((x.2.st.part? 0).map (fun p => (p.layer 0).selector 0) == some Selector.reset) = true :=
  ⟨ok_of _ _ (by decide +kernel), ok_of _ _ (by decide +kernel), ok_of _ _ (by decide +kernel)⟩

/-- A request of slot 0 that has read layerBytes, with the words of its descriptor from word 1 on; and labLayer with it in
flight, a CURRENT version 1 of one connection, and a second page of column 0. -/
def shareReq (hist : Bool) (head d : Nat) : MaskReq :=
  { aReq hist false with desc := bytesOf 8 head ++ bytesOf 8 d ++ bytesOf 16 0x400, ldesc := layerBytes }
def labShare (r : MaskReq) : State :=
  { ((withColumn (labLayer true (aRing .current 0) 0)).poke 0x102008 (2 ^ 59 + 32 * 2 ^ 20 + 0x34B)).poke (colKey 0 0x48) 0x100010001 with
    masks := [r] }

theorem witness_MaskLayers_shares :
    let r := shareReq false 0 1
    let s := labShare r
    s.maskOf 0 1 = some r ∧ s.isNext r = true ∧ r.hist = false ∧ r.deferred = false ∧ Memory.wf s.mem = true ∧
    s.inboxTakes 0 ∧ (Desc.read layerBytes).en = true ∧ s.descOk (Desc.read layerBytes) = true ∧
    (s.layer 0 0).paramsOk (Desc.read layerBytes) 0 r.params = true ∧ (s.layer 0 0).enter 0 1 = .starts 1 ∧
    (∃ x, s.requestDesc 0 r = .ok x ∧ (decide (x.1 = Desc.read layerBytes) && decide (x.2 = s)) = true) ∧
    (let v := s.modLayer 0 0 fun y => y.build 1 false;
      (v.layer 0 0).find .current = some 0 ∧
        (∃ x, v.engine 0 (Eng.weights 0 (Desc.read layerBytes) 0 0 ((v.layer 0 0).slot 0).ver) = .ok x ∧
          ((x.1.map (·.2)) == [0]) = true) ∧
        ∃ x, v.engine 0 (Eng.share 0 (Desc.read layerBytes) 0 0 1 ((v.layer 0 0).slot 0).ver ((v.layer 0 0).slot 1).ver r.params
          ((v.layer 0 0).selector 0).cands) = .ok x ∧ (x.1 == some (1, 0, 0)) = true) := by
  refine ⟨by decide, by decide, rfl, rfl, by decide +kernel, ⟨by decide, by decide, by decide, by decide, fun _ => kept rfl rfl _⟩,
    by decide, by decide, by decide, by decide, ok_of _ _ (by decide +kernel), by decide, ok_of _ _ (by decide +kernel),
    ok_of _ _ (by decide +kernel)⟩

theorem witness_MaskLayers_histograms :
    let r := shareReq true 0 0
    let s := labShare r
    s.maskOf 0 1 = some r ∧ s.isNext r = true ∧ r.hist = true ∧ r.deferred = false ∧
    (∃ x, s.requestDesc 0 r = .ok x ∧ (decide (x.1 = Desc.read layerBytes) && decide (x.2 = s)) = true) ∧
    recNat 5 1 r.desc ≤ 2 ∧ recNat 4 1 r.desc = 0 ∧ (s.layer 0 0).find .current = some 0 ∧
    (∃ x, s.engine 0 (Eng.weights 0 (Desc.read layerBytes) 0 0 ((s.layer 0 0).slot 0).ver) = .ok x ∧ ((x.1.map (·.2)) == [0]) = true) ∧
    recNat 0x10 8 r.desc % 2 ^ 17 + histBytes 0 ≤ 2 ^ 17 ∧ s.isLost (spadKey 0 0x400) = false ∧ s.isOut 0 = false ∧
    (∀ i < 32, ∀ x < histBytes 0, s.ringKey 0 ((s.slot 0).ringTail + i) ≠ spadKey 0 (0x400 + x)) ∧
    recNat 4 1 (shareReq true (2 ^ 32) 0).desc = 1 := by
  refine ⟨by decide, by decide, rfl, rfl, ok_of _ _ (by decide +kernel), by decide, by decide, by decide,
    ok_of _ _ (by decide +kernel), by decide +kernel, by decide, by decide, ?_, by decide⟩
  intro i hi x hx h
  have hx : x < 8192 := hx
  have hk : (labShare (shareReq true 0 0)).ringKey 0 (((labShare (shareReq true 0 0)).slot 0).ringTail + i) < spadKey 0 0x400 :=
    (by decide +kernel : ∀ i < 32, (labShare (shareReq true 0 0)).ringKey 0 (((labShare (shareReq true 0 0)).slot 0).ringTail + i) <
      spadKey 0 0x400) i hi
  rw [h] at hk
  simp [spadKey] at hk
  omega

theorem witness_KillsInvalidationsAndEnds_phases :
    let p := { aPhase with windows := [⟨0, 9, 1, 0, 1, 0, none, false⟩] }
    let s := labIn p 0 0 0 0 0
    s.me.quar = false ∧ s.myCore.phase = some p ∧ p.slot = s.cur ∧ s.phaseDone (coreOf s.cur) s.myCore.now = false := by decide

theorem witness_ReliabilityEvents_marks :
    lab.keyExists (colKey (4 / 32) 0) = true ∧ lab.poison.contains (0x200000 / 64) = false ∧
    ({ lab with poison := [0x8000] } : State).poison.contains (0x200000 / 64) = true := by decide

theorem witness_HostPortsAndOwnership_config : ((labPort true).port 0).up = true ∧ ((labPort true).port 0).bar0 = 4 := by decide

theorem witness_PartitionCommands_out :
    let r := reqOf 0 []
    ((labOut 2 r).part? (recNat 0 1 r)).map (fun p => p.out.isSome && p.groups.length == 1) = some true ∧
      ((labOut 2 r).port 0).cmdOwned = true ∧ (labOut 2 r).host.order.head? = some 0 := by decide

theorem witness_ModuleAndOutside_waits :
    let s := (labFar 0).modPart 0 fun p => { p with out := some (anImage false none) }
    (∃ p, s.partAt (far1.toNat % 2 ^ 41 / 2 ^ 26) = some (0, p) ∧ p.out ≠ none ∧ s.target p (2 ^ 20) far1 = some (.spad 1 0 0)) ∧
      s.host.waiting = [] ∧ 0 % 4096 + [(7 : Byte)].length ≤ 4096 := ⟨⟨_, rfl, by decide, rfl⟩, by decide⟩

theorem witness_StepRunsDecodedInstruction_waits :
    (lab.takeUpSlot 0).behind 0 0x200000 = false ∧
    ({ lab with host := { lab.host with waiting := [⟨0, 0x200000, 0x200000, 8, none, .port⟩] } } : State).behind 0 0x200000 = true := by
  decide

/-! ## Words and single steps that the spec works out -/

/-- The encodings worked out beside R194, R238, R252, R284, R299 and R330. -/
theorem test_spec_words : ∀ p ∈ ([(0x50210A00, .fadd 0 4 4 5 0), (0x04310000, .addi 6 4 0), (0x6B104008, .vredSum 1 2 1 0),
    (0x15218200, .vst 4 6 1 0), (0x14298200, .vld 5 6 1 0), (0x1B380000, .rel 7), (0x15320600, .vst 6 8 3 0),
    (0x02200100, .li 4 0x100), (0x26100000, .epn 2), (0x12100623, .st 2 0 3 0x23), (0x20190000, .cpy 3 4),
    (0x23300000, .recv 6), (0x25380000, .deq 7), (0x04297FFF, .addi 5 5 0x3FFF), (0x49094001, .cmpNe 1 5 0),
    (0x090FFFFC, .brp 1 false 0x7FFFC), (0x0F000000, .tend), (0x30190000, .mq 3 4), (0x33014C08, .accld 5 6 1 0),
    (0x06280004, .getsr 5 4), (0x27080000, .chkerr 1), (0x3A00FBAC, .sigchk 0xFBAC)] : List (Nat × Instr)),
    decodeBundle p.1 = .ok (p.2, none) := by decide +kernel

/-- The pair of R194's example as its bytes stand in memory. -/
theorem test_spec_bytes : decode [0x28, 0x80, 0x18, 0x84, 0x08, 0x4C, 0x39, 0x10] =
    .ok ((.addi 3 2 40, some (.fadd 1 7 5 6 0)), []) := by decide +kernel

/-- What an instruction puts in flight. -/
def flies (i : Instr) (s : State) (fs : List InFlight) : Bool := next (exec i s) fun t => t.me.flight == fs

/-- R197's examples: -7 over 2 is -3, with remainder -1; 7 over 0 is all ones unsigned, with remainder 7. -/
theorem test_division : flies (.div 3 1 2) (lab3 0xFFFFFFFFFFFFFFF9 2 0) (sres 1 3 0xFFFFFFFFFFFFFFFD) ∧
    flies (.rem 3 1 2) (lab3 0xFFFFFFFFFFFFFFF9 2 0) (sres 1 3 0xFFFFFFFFFFFFFFFF) ∧
    flies (.divu 3 1 2) (lab3 7 0 0) (sres 1 3 0xFFFFFFFFFFFFFFFF) ∧ flies (.remu 3 1 2) (lab3 7 0 0) (sres 1 3 7) := by decide +kernel

/-- R198: a shift count of 64 is 0; SRA keeps the sign; ANDN takes the complement of sb. -/
theorem test_shifts : flies (.shl 3 1 2) (lab3 3 64 0) (sres 1 3 3) ∧
    flies (.sra 3 1 2) (lab3 0x8000000000000000 63 0) (sres 1 3 0xFFFFFFFFFFFFFFFF) ∧
    flies (.rol 3 1 2) (lab3 0x8000000000000001 1 0) (sres 1 3 3) ∧ flies (.andn 3 1 2) (lab3 0xF 0x3 0) (sres 1 3 0xC) := by
  decide +kernel

/-- R202: BFI keeps the bits of sd outside the field, also where sd is a source. -/
theorem test_bitfields : flies (.bfi 3 1 2) (lab3 0xAB 0x804 0xFFFF) (sres 1 3 0xFABF) ∧
    flies (.bfx 3 1 2) (lab3 0xF80 0x10804 0) (sres 1 3 0xFFFFFFFFFFFFFFF8) := by decide +kernel

/-- R223: 1.0 + 2.0 = 3.0 in F64 with latency 6; 2^24 + 1.0 in F32 rounds to 2^24 with NX. -/
theorem test_fadd : flies (.fadd 0 4 1 2 0) (lab3 0x3FF0000000000000 0x4000000000000000 0) (fpres 6 4 0x4008000000000000 0) ∧
    flies (.fadd 1 4 1 2 0) (lab3 0x4B800000 0x3F800000 0) (fpres 4 4 0x4B800000 16) := by decide +kernel

/-- R105, R106: 2.0^128 overflows to infinity under RNE and to the greatest finite value under RTZ, with OF and NX. -/
theorem test_overflow : flies (.fmul 1 4 1 2 0) (lab3 0x7F000000 0x40000000 0) (fpres 4 4 0x7F800000 20) ∧
    flies (.fmul 1 4 1 2 1) (lab3 0x7F000000 0x40000000 0) (fpres 4 4 0x7F7FFFFF 20) := by decide +kernel

/-- R225: LT of a quiet NaN sets NV, EQ does not. -/
theorem test_fcmp : flies (.fcmpLt 1 4 1 2) (lab3 0x7FC00000 0 0) (pres 4 4 false ++ fres 4 1) ∧
    flies (.fcmpEq 1 4 1 2) (lab3 0x7FC00000 0 0) (pres 4 4 false) := by decide +kernel

/-- R238's example: 2^24, 1, 1, 1 and zeros sum to 16,777,218.0 by the tree, with NX. -/
theorem test_tree_sum : next (exec (.vredSum 1 2 1 0) (labV 0x3F8000003F8000003F8000004B800000 0 0))
    (fun t => t.me.flight == vres 8 2 0x4B800001 ++ fres 8 16) = true := by decide +kernel

/-- R230: the lanes of an I8 sum wrap without a carry into the next. -/
theorem test_vadd_lanes : next (exec (.vadd 7 4 1 2 0) (labV 0x01FF 0x0101 0)) (fun t => t.me.flight == vres 4 4 0x0200) =
    true := by decide +kernel

/-- R252, R257: a byte load extends its sign, or zeros with u; the store before it kept its neighbours. -/
theorem test_byte_access : flies (.ld 3 1 0 false 0) ((lab3 0x41 0 0).poke (spadKey 0 0x40) 0x80FF) (sres 4 3 0xFFFFFFFFFFFFFF80) ∧
    flies (.ld 3 1 0 true 0) ((lab3 0x41 0 0).poke (spadKey 0 0x40) 0x80FF) (sres 4 3 0x80) ∧
    next (exec (.st 2 1 1 1) ((lab3 0x40 0xABCD 0).poke (spadKey 0 0x40) 0x1111111111111111))
      (fun t => t.mem.num (spadKey 0 0x40) 8 == 0x11111111ABCD1111) = true := by decide +kernel

/-- R263: CAS stores sb where the old word is sd, and gives the old word, sign-extended from 4 bytes. -/
theorem test_cas : next (exec (.amoCas 3 1 2 false) ((lab3 0x40 7 0xFFFFFFFE).poke (spadKey 0 0x40) 0xFFFFFFFE))
    (fun t => t.me.flight == sres 4 3 0xFFFFFFFFFFFFFFFE && t.mem.num (spadKey 0 0x40) 4 == 7) = true := by decide +kernel

/-- R53, R62: the worked decoding, core 5 of column 9,953 through window 2, and an offset in no range. -/
theorem test_worked_address : lab.myTarget 0x29B86540140 = some (.spad (9953 * 8 + 5) 2 0x140) ∧
    lab.myTarget (0x29B84000000 + 0x1800040) = none ∧ lab.myTarget 0x29B84040000 = some (.col 9953 0x40000) := by decide +kernel

/-- R71, R73: a store into HBM space leaves home as it was and stands in the log with sequence 1. -/
theorem test_shared_store : next (exec (.st 2 1 3 0) (lab3 0x200040 5 0))
    (fun t => t.mem == lab.mem && t.me.log.entries.map (fun e => (e.seq, e.va)) == [(1, 0x200040)]) = true := by decide +kernel

/-- R345: the three bytes that a CNOP feeds leave 0xFBAC. -/
theorem test_signature : feedBundle 0xFFFF 0x01000000 false = 0xFBAC := by decide +kernel

/-- R337: TRAP saves its address and operand with cause 7 and goes on at the vector at supervisor level. -/
theorem test_trap : next (exec (.trap 1) (labVec.modSlot 0 fun t => { t with regs := Regs.three 0x55 0 0 }))
    (fun t => t.me.trap.cause == 7 && t.me.trap.pc == 0x200000 && t.me.trap.addr == 0x55 && t.me.trap.status == 1 &&
      t.me.pc == 0x300000 && t.flow == .trapped) = true := by decide +kernel

/-- R330: ERET at task level raises PRIV, cause 2. -/
theorem test_priv : next (exec .eret labVec) (fun t => t.me.trap.cause == 2 && t.flow == .trapped) = true := by decide +kernel

/-- R343: ERET of a handler returns to TRAPPC at task level. -/
theorem test_eret : next (exec .eret (labT fun t => { t with trap := { t.trap with status := 1, pc := 0x200040 } }))
    (fun t => t.me.pc == 0x200040 && t.me.trap.status == 0 && t.flow == .jumped false) = true := by decide +kernel

/-- R189: the F64 sum issued at cycle 0 is not seen at cycle 5 and is seen at cycle 6. -/
theorem test_landing : next (exec (.fadd 0 4 1 2 0) (lab3 0x3FF0000000000000 0x4000000000000000 0))
    (fun t => (t.ticks 0 5).rs 4 == 0 && (t.ticks 0 6).rs 4 == 0x4008000000000000) = true := by decide +kernel

/-- R210: a branch back by four bundles; R214: a loop of two bundles stands open. -/
theorem test_branch : next (exec (.br 0x7FFFC) lab) (fun t => t.flow == .taken 0x1FFFE0 true) = true ∧
    next (exec (.loop 1 2) (lab3 3 0 0)) (fun t => t.me.loops == [⟨0x200008, 0x200010, 3⟩]) = true := by decide +kernel

/-- R277 to R284: a message of 32 bytes stands in the ring as a record of 64 with units 2; DEQ then gives kind 1. -/
theorem test_message : next (exec (.messageDelivery 0 0 3) (labMsg [msgTo 0x400001 32]))
    (fun t => t.mem.num (spadKey 1 0) 2 == 0x0201 && (t.slot 4).ringHeld == 64 &&
      next (exec (.deq 5) { t with cur := 4 }) (fun u => u.me.flight == sres 1 5 1 && u.me.ringHeld == 0)) = true := by decide +kernel

/-- R288: the one chunk of a copy of 32 bytes. -/
theorem test_chunk : next (exec (.chunkRecord 0 1 0) ((labCopies [aCopy [] true] 1).poke (spadKey 0 0x100) 0x1234))
    (fun t => t.mem.num (spadKey 0 0x80) 8 == 0x1234) = true := by decide +kernel

/-- R289: the completion of a copy of 32 bytes. -/
theorem test_copy : next (exec (.copyCompletion 0 1) (labCopies [aCopy [0] false] 1))
    (fun u => u.copies == [] && u.mem.num (spadKey 0 0) 2 == 0x0002 && u.mem.num (spadKey 0 8) 8 == 32) = true := by
  decide +kernel

/-- R311, R116: one cell of a DENSE F32 job, 3.0 times 1.0. -/
theorem test_dense_job : next (exec (.jobCompletion 0)
    (((labJobs [aJob (jobBytes 0x10100 0 0x400 0x800) (some (0, 0)) true true] 1 0 0).poke (spadKey 0 0x400) 0x40400000).poke
      (spadKey 0 0x800) 0x3F800000)) (fun t => t.mem.num (accKey 0 0) 4 == 0x40400000 && t.jobs == []) = true := by decide +kernel

/-- R39: a task starts with its argument in s1, at its entry. -/
theorem test_task_start : next (exec (.taskStart 0) (labQueued.modPart 0 fun p => { p with groups := [{ queued with args := 9 }] }))
    (fun t => (t.slot 0).status == .ready && (t.slot 0).pc == 0x200000 && (t.slot 0).regs.sreg 1 == 9) = true := by decide +kernel

/-- R390: a claim of an unowned device. -/
theorem test_claim : next (exec (.claim 0)
    { labPort false with host := { (labPort false).host with ownWrites := [⟨0, 1, 0, 0⟩] } }) (fun t => t.host.owned && t.host.owner == 0 && t.host.epoch == 1) =
    true := by decide +kernel

/-- R177, R187: a step issues the bundle at the pc; the sum of s1 and s2 lands before the next bundle issues. -/
theorem test_step : next (step ((lab3 5 6 0).poke 0x200000 0x41184400))
    (fun t => t.me.pc == 0x200008 && t.rs 3 == 11) = true := by decide +kernel

/-- From reset a bundle placed where the step fetches runs as the first instruction. -/
theorem test_placed : next (step (State.reset.withFetchWord 32 0x02080007)) (fun t => t.rs 1 == 7) = true ∧
    decodeTableWord 32 0x02080007 = some (.li 1 7) := by decide +kernel

end Sys2Proof.Tests
end

section
/-! SUPPORT. How a syllable's fields read back from its word, and how an instruction of one of the shared shapes
completes. -/

namespace Sys2Proof.Machine

/-! ## The fields of a syllable (R180) -/

section
variable {d a b : BitVec 5} {fn : Nat}

/-- The selector fn[2:0] lies below the register fields. -/
@[simp] theorem syllable_mod_eight : syllable d a b fn % 8 = fn % 8 := by
  unfold syllable; omega

@[simp] theorem field_syllable_d (h : fn < 2 ^ 9) : field 5 19 (syllable d a b fn) = d := by
  apply BitVec.eq_of_toNat_eq
  simp only [field, syllable, BitVec.toNat_ofNat]
  omega

@[simp] theorem field_syllable_a (h : fn < 2 ^ 9) : field 5 14 (syllable d a b fn) = a := by
  apply BitVec.eq_of_toNat_eq
  simp only [field, syllable, BitVec.toNat_ofNat]
  omega

@[simp] theorem field_syllable_b (h : fn < 2 ^ 9) : field 5 9 (syllable d a b fn) = b := by
  apply BitVec.eq_of_toNat_eq
  simp only [field, syllable, BitVec.toNat_ofNat]
  omega

end

/-! ## Completing with one result -/

section
variable {i : Instr} {s : State}

theorem Completes.scalar_congr {n : Nat} {d : SReg} {u v : Word} (h : Completes i s (sres n d u)) (huv : u = v) :
    Completes i s (sres n d v) := huv ▸ h

theorem Completes.pred_congr {n : Nat} {d : PReg} {u v : Bool} (h : Completes i s (pres n d u)) (huv : u = v) :
    Completes i s (pres n d v) := huv ▸ h

end

/-! ## What each integer instruction puts in flight (R196 to R203, R207) -/

section
variable (s : State) (d a b : SReg) (p q r : PReg)

theorem completes_add : Completes (.add d a b) s (sres 1 d (s.rs a + s.rs b)) := rfl
theorem completes_sub : Completes (.sub d a b) s (sres 1 d (s.rs a - s.rs b)) := rfl
theorem completes_mul : Completes (.mul d a b) s (sres 1 d (s.rs a * s.rs b)) := rfl
theorem completes_mulhs : Completes (.mulhs d a b) s (sres 1 d (mulHighS (s.rs a) (s.rs b))) := rfl
theorem completes_mulhu : Completes (.mulhu d a b) s (sres 1 d (mulHighU (s.rs a) (s.rs b))) := rfl
theorem completes_div : Completes (.div d a b) s (sres 1 d (divS (s.rs a) (s.rs b))) := rfl
theorem completes_divu : Completes (.divu d a b) s (sres 1 d (divU (s.rs a) (s.rs b))) := rfl
theorem completes_rem : Completes (.rem d a b) s (sres 1 d (remS (s.rs a) (s.rs b))) := rfl
theorem completes_remu : Completes (.remu d a b) s (sres 1 d (remU (s.rs a) (s.rs b))) := rfl
theorem completes_and : Completes (.and d a b) s (sres 1 d (s.rs a &&& s.rs b)) := rfl
theorem completes_or : Completes (.or d a b) s (sres 1 d (s.rs a ||| s.rs b)) := rfl
theorem completes_xor : Completes (.xor d a b) s (sres 1 d (s.rs a ^^^ s.rs b)) := rfl
theorem completes_andn : Completes (.andn d a b) s (sres 1 d (s.rs a &&& ~~~ s.rs b)) := rfl
theorem completes_orn : Completes (.orn d a b) s (sres 1 d (s.rs a ||| ~~~ s.rs b)) := rfl
theorem completes_xnor : Completes (.xnor d a b) s (sres 1 d (~~~ (s.rs a ^^^ s.rs b))) := rfl
theorem completes_shl : Completes (.shl d a b) s (sres 1 d (s.rs a <<< count6 (s.rs b))) := rfl
theorem completes_shr : Completes (.shr d a b) s (sres 1 d (s.rs a >>> count6 (s.rs b))) := rfl
theorem completes_sra : Completes (.sra d a b) s (sres 1 d ((s.rs a).sshiftRight (count6 (s.rs b)))) := rfl
theorem completes_rol : Completes (.rol d a b) s (sres 1 d ((s.rs a).rotateLeft (count6 (s.rs b)))) := rfl
theorem completes_smin : Completes (.smin d a b) s (sres 1 d (minS (s.rs a) (s.rs b))) := rfl
theorem completes_smax : Completes (.smax d a b) s (sres 1 d (maxS (s.rs a) (s.rs b))) := rfl
theorem completes_umin : Completes (.umin d a b) s (sres 1 d (minU (s.rs a) (s.rs b))) := rfl
theorem completes_umax : Completes (.umax d a b) s (sres 1 d (maxU (s.rs a) (s.rs b))) := rfl

theorem completes_clz : Completes (.clz d a) s (sres 1 d (clz64 (s.rs a))) := rfl
theorem completes_ctz : Completes (.ctz d a) s (sres 1 d (ctz64 (s.rs a))) := rfl
theorem completes_popc : Completes (.popc d a) s (sres 1 d (popc64 (s.rs a))) := rfl
theorem completes_brev : Completes (.brev d a) s (sres 1 d (brev64 (s.rs a))) := rfl
theorem completes_bswap : Completes (.bswap d a) s (sres 1 d (bswap64 (s.rs a))) := rfl

theorem completes_cmpEq : Completes (.cmpEq p a b) s (pres 1 p (s.rs a == s.rs b)) := rfl
theorem completes_cmpNe : Completes (.cmpNe p a b) s (pres 1 p (s.rs a != s.rs b)) := rfl
theorem completes_cmpLt : Completes (.cmpLt p a b) s (pres 1 p (decide ((s.rs a).toInt < (s.rs b).toInt))) := rfl
theorem completes_cmpLe : Completes (.cmpLe p a b) s (pres 1 p (decide ((s.rs a).toInt ≤ (s.rs b).toInt))) := rfl
theorem completes_cmpLtu : Completes (.cmpLtu p a b) s (pres 1 p (decide ((s.rs a).toNat < (s.rs b).toNat))) := rfl
theorem completes_cmpLeu : Completes (.cmpLeu p a b) s (pres 1 p (decide ((s.rs a).toNat ≤ (s.rs b).toNat))) := rfl

theorem completes_sel : Completes (.sel d a b) s (sres 1 d (if s.rs d ≠ 0 then s.rs a else s.rs b)) := rfl
theorem completes_bfx : Completes (.bfx d a b) s (sres 1 d (bfxOf (s.rs a) (s.rs b))) := rfl
theorem completes_bfi : Completes (.bfi d a b) s (sres 1 d (bfiOf (s.rs d) (s.rs a) (s.rs b))) := rfl
theorem completes_adda : Completes (.adda d a b) s (sres 1 d (effAddr (s.rs a) (s.rs b))) := rfl

theorem completes_movpToScalar : Completes (.movpToScalar d q) s (sres 1 d (ofFlag (s.rp q))) := rfl
theorem completes_movpToPred : Completes (.movpToPred p a) s (pres 1 p (s.rs a != 0)) := rfl
theorem completes_movpAnd : Completes (.movpAnd p q r) s (pres 1 p (s.rp q && s.rp r)) := rfl
theorem completes_movpOr : Completes (.movpOr p q r) s (pres 1 p (s.rp q || s.rp r)) := rfl
theorem completes_movpXor : Completes (.movpXor p q r) s (pres 1 p (s.rp q != s.rp r)) := rfl
theorem completes_movpNot : Completes (.movpNot p q) s (pres 1 p (!s.rp q)) := rfl

end

end Sys2Proof.Machine
end

section
/-! PROOF. The arithmetic majors (R196). -/

namespace Sys2Proof.Machine

theorem add_eq_ofNat_mod (x y : Word) : x + y = BitVec.ofNat 64 ((x.toNat + y.toNat) % 2 ^ 64) :=
  BitVec.eq_of_toNat_eq (by simp)

theorem sub_eq_ofInt (x y : Word) : x - y = BitVec.ofInt 64 ((x.toNat : Int) - y.toNat) := by
  apply BitVec.eq_of_toNat_eq
  simp only [BitVec.toNat_sub, BitVec.toNat_ofInt]
  omega

theorem mul_eq_ofNat_mod (x y : Word) : x * y = BitVec.ofNat 64 (x.toNat * y.toNat % 2 ^ 64) :=
  BitVec.eq_of_toNat_eq (by simp)

/-- MULHS: the product of the sign extensions is that of the integers modulo 2 to the 128, whose upper half is its
quotient by 2 to the 64. -/
theorem mulHighS_eq (x y : Word) : mulHighS x y = BitVec.ofInt 64 (x.toInt * y.toInt / 2 ^ 64) := by
  have hp : x.signExtend 128 * y.signExtend 128 = BitVec.ofInt 128 (x.toInt * y.toInt) := (BitVec.ofInt_mul ..).symm
  apply BitVec.eq_of_toNat_eq
  rw [mulHighS, hp]
  simp only [BitVec.toNat_setWidth, BitVec.toNat_ushiftRight, BitVec.toNat_ofInt, Nat.shiftRight_eq_div_pow]
  generalize x.toInt * y.toInt = p
  omega

/-- MULHU: the product of two quads fits 128 bits. -/
theorem mulHighU_eq (x y : Word) : mulHighU x y = BitVec.ofNat 64 (x.toNat * y.toNat / 2 ^ 64) := by
  apply BitVec.eq_of_toNat_eq
  simp only [mulHighU, BitVec.toNat_setWidth, BitVec.toNat_ushiftRight, BitVec.toNat_mul, BitVec.toNat_ofNat,
    Nat.shiftRight_eq_div_pow, Nat.mod_eq_of_lt (x.isLt.trans (by decide : 2 ^ 64 < 2 ^ 128)),
    Nat.mod_eq_of_lt (y.isLt.trans (by decide : 2 ^ 64 < 2 ^ 128))]
  generalize x.toNat * y.toNat = p
  omega

/-- Settles O1: each function of the model is the integer result wrapped to 64 bits. -/
theorem integerArithmetic : Obligations.IntegerArithmetic := by
  refine ⟨fun d a b => ⟨fun fn hfn => ?_, fun h hh => ?_⟩, fun s d a b => ⟨?_, ?_, ?_, ?_, ?_⟩⟩
  · simp (disch := omega) [decodeA]
  · simp (disch := omega) [decodeA]
  · exact (completes_add s d a b).scalar_congr (add_eq_ofNat_mod ..)
  · exact (completes_sub s d a b).scalar_congr (sub_eq_ofInt ..)
  · exact (completes_mul s d a b).scalar_congr (mul_eq_ofNat_mod ..)
  · exact (completes_mulhs s d a b).scalar_congr (mulHighS_eq ..)
  · exact (completes_mulhu s d a b).scalar_congr (mulHighU_eq ..)

end Sys2Proof.Machine
end

section
/-! PROOF. The divisions (R197). -/

namespace Sys2Proof.Machine

section
variable {x y : Word}

/-- The least signed quad, the dividend of the one overflow. -/
theorem toInt_eq_min_iff : x.toInt = -2 ^ 63 ↔ x = 0x8000000000000000 := by
  rw [← BitVec.toInt_inj]
  rfl

theorem toInt_eq_neg_one_iff : y.toInt = -1 ↔ y = 0xFFFFFFFFFFFFFFFF := by
  rw [← BitVec.toInt_inj]
  rfl

theorem divS_zero : divS x 0 = 0xFFFFFFFFFFFFFFFF := rfl
theorem remS_zero : remS x 0 = x := rfl
theorem divU_zero : divU x 0 = 0xFFFFFFFFFFFFFFFF := rfl
theorem remU_zero : remU x 0 = x := rfl

theorem divS_overflow (hx : x.toInt = -2 ^ 63) (hy : y.toInt = -1) : divS x y = x := by
  rw [toInt_eq_min_iff] at hx
  rw [toInt_eq_neg_one_iff] at hy
  subst hx hy
  rfl

theorem remS_overflow (hx : x.toInt = -2 ^ 63) (hy : y.toInt = -1) : remS x y = 0 := by
  rw [toInt_eq_min_iff] at hx
  rw [toInt_eq_neg_one_iff] at hy
  subst hx hy
  rfl

/-- Outside the overflow the quotient truncated toward zero fits a signed quad. -/
theorem divS_toInt (h0 : y ≠ 0) (ho : ¬ (x.toInt = -2 ^ 63 ∧ y.toInt = -1)) :
    (divS x y).toInt = x.toInt.tdiv y.toInt := by
  rw [toInt_eq_min_iff, toInt_eq_neg_one_iff] at ho
  rw [divS, if_neg h0, if_neg ho, BitVec.toInt_ofInt, ← BitVec.toInt_sdiv]
  exact BitVec.toInt_sdiv_of_ne_or_ne x y (not_and_or.1 ho)

/-- Outside the overflow REM is the remainder of the truncated quotient. -/
theorem remS_toInt (h0 : y ≠ 0) (ho : ¬ (x.toInt = -2 ^ 63 ∧ y.toInt = -1)) :
    (remS x y).toInt = x.toInt.tmod y.toInt := by
  rw [toInt_eq_min_iff, toInt_eq_neg_one_iff] at ho
  rw [remS, if_neg h0, if_neg ho, mul_comm, ← Int.tmod_def, ← BitVec.toInt_srem, BitVec.ofInt_toInt]

/-- A remainder is zero or has the sign of the dividend. -/
theorem tmod_eq_zero_or_neg_iff (m n : Int) : m.tmod n = 0 ∨ (m.tmod n < 0 ↔ m < 0) := by
  rcases lt_or_ge m 0 with hm | hm
  · have : (-m).tmod n ≥ 0 := Int.tmod_nonneg n (by omega)
    rw [Int.neg_tmod] at this
    omega
  · have := Int.tmod_nonneg n hm
    omega

theorem divU_toNat (h0 : y ≠ 0) : (divU x y).toNat = x.toNat / y.toNat := by
  rw [divU, if_neg h0, BitVec.toNat_ofNat]
  exact Nat.mod_eq_of_lt ((Nat.div_le_self ..).trans_lt x.isLt)

theorem remU_toNat (h0 : y ≠ 0) : (remU x y).toNat = x.toNat % y.toNat := by
  rw [remU, if_neg h0, BitVec.toNat_ofNat]
  exact Nat.mod_eq_of_lt ((Nat.mod_le ..).trans_lt x.isLt)

end

/-- Settles O2: a zero divisor, the one overflow, and otherwise the truncated quotient and its remainder. -/
theorem divisionResults : Obligations.DivisionResults := by
  refine ⟨fun d a b => by simp [decodeA], fun s d a b => ⟨fun h0 => ?_, fun hx hy => ?_, fun h0 ho => ?_, fun h0 => ?_⟩⟩
  · exact ⟨(completes_div s d a b).scalar_congr (by rw [h0, divS_zero]),
      (completes_rem s d a b).scalar_congr (by rw [h0, remS_zero]),
      (completes_divu s d a b).scalar_congr (by rw [h0, divU_zero]),
      (completes_remu s d a b).scalar_congr (by rw [h0, remU_zero])⟩
  · exact ⟨(completes_div s d a b).scalar_congr (divS_overflow hx hy),
      (completes_rem s d a b).scalar_congr (remS_overflow hx hy)⟩
  · have hr := remS_toInt h0 ho
    refine ⟨⟨_, completes_div s d a b, divS_toInt h0 ho⟩, _, completes_rem s d a b, ?_, ?_⟩
    · rw [hr, Int.tmod_def, mul_comm]
    · rw [← BitVec.toInt_inj, hr]
      exact tmod_eq_zero_or_neg_iff ..
  · exact ⟨⟨_, completes_divu s d a b, divU_toNat h0⟩, _, completes_remu s d a b, remU_toNat h0⟩

end Sys2Proof.Machine
end

section
/-! PROOF. Logic, shifts, rotation, minimum and maximum (R198). -/

namespace Sys2Proof.Machine

/-! ## Logic -/

theorem getLsbD_and_not (x y : Word) {i : Nat} (hi : i < 64) :
    (x &&& ~~~ y).getLsbD i = (x.getLsbD i && !y.getLsbD i) := by
  rw [BitVec.getLsbD_and, BitVec.getLsbD_not, decide_eq_true hi, Bool.true_and]

theorem getLsbD_or_not (x y : Word) {i : Nat} (hi : i < 64) :
    (x ||| ~~~ y).getLsbD i = (x.getLsbD i || !y.getLsbD i) := by
  rw [BitVec.getLsbD_or, BitVec.getLsbD_not, decide_eq_true hi, Bool.true_and]

theorem getLsbD_not_xor (x y : Word) {i : Nat} (hi : i < 64) :
    (~~~ (x ^^^ y)).getLsbD i = (x.getLsbD i == y.getLsbD i) := by
  rw [BitVec.getLsbD_not, BitVec.getLsbD_xor, decide_eq_true hi, Bool.true_and, Bool.beq_eq_decide_eq]
  cases x.getLsbD i <;> cases y.getLsbD i <;> rfl

/-! ## Shifts and rotation -/

theorem count6_lt (y : Word) : count6 y < 64 := Nat.mod_lt _ (by decide)

/-- SHL moves bit i - n to bit i and fills with zeros. -/
theorem getLsbD_shiftLeft_quad (x : Word) (n : Nat) {i : Nat} (hi : i < 64) :
    (x <<< n).getLsbD i = (decide (n ≤ i) && x.getLsbD (i - n)) := by
  simp only [BitVec.getLsbD_shiftLeft, hi, decide_true, Bool.true_and, ← Nat.not_lt, decide_not]

/-- SHR moves bit i + n to bit i and fills with zeros. -/
theorem getLsbD_ushiftRight_quad (x : Word) (n i : Nat) :
    (x >>> n).getLsbD i = (decide (i + n < 64) && x.getLsbD (i + n)) := by
  rw [BitVec.getLsbD_ushiftRight, Nat.add_comm n i]
  by_cases h : i + n < 64
  · simp only [h, decide_true, Bool.true_and]
  · simp only [h, decide_false, Bool.false_and]
    exact BitVec.getLsbD_of_ge _ _ (Nat.not_lt.1 h)

/-- SRA fills with the sign bit. -/
theorem getLsbD_sshiftRight_quad (x : Word) (n : Nat) {i : Nat} (hi : i < 64) :
    (x.sshiftRight n).getLsbD i = if i + n < 64 then x.getLsbD (i + n) else x.getLsbD 63 := by
  rw [BitVec.getLsbD_sshiftRight, BitVec.msb_eq_getLsbD_last, Nat.add_comm n i]
  simp only [Nat.not_le.2 hi, decide_false, Bool.not_false, Bool.true_and]

/-- ROL takes bit i to bit i + n, around the quad. -/
theorem getLsbD_rotateLeft_add (x : Word) {n i : Nat} (hn : n < 64) (hi : i < 64) :
    (x.rotateLeft n).getLsbD ((i + n) % 64) = x.getLsbD i := by
  rw [BitVec.getLsbD_rotateLeft, Nat.mod_eq_of_lt hn]
  by_cases hw : i + n < 64
  · have hge : ¬ i + n < n := by omega
    simp [Nat.mod_eq_of_lt hw, hge, hw]
  · have hmod : (i + n) % 64 = i + n - 64 := by omega
    have hlt : i + n - 64 < n := by omega
    have hback : 64 - n + (i + n - 64) = i := by omega
    simp [hmod, hlt, hback]

/-! ## Minimum and maximum -/

theorem minS_eq (x y : Word) : minS x y = BitVec.ofInt 64 (min x.toInt y.toInt) := by
  rw [min_def, apply_ite (BitVec.ofInt 64), BitVec.ofInt_toInt, BitVec.ofInt_toInt, minS]

theorem maxS_eq (x y : Word) : maxS x y = BitVec.ofInt 64 (max x.toInt y.toInt) := by
  rw [max_def, apply_ite (BitVec.ofInt 64), BitVec.ofInt_toInt, BitVec.ofInt_toInt, maxS]

theorem minU_eq (x y : Word) : minU x y = BitVec.ofNat 64 (min x.toNat y.toNat) := by
  rw [min_def, apply_ite (BitVec.ofNat 64), BitVec.ofNat_toNat, BitVec.ofNat_toNat, BitVec.setWidth_eq,
    BitVec.setWidth_eq, minU]

theorem maxU_eq (x y : Word) : maxU x y = BitVec.ofNat 64 (max x.toNat y.toNat) := by
  rw [max_def, apply_ite (BitVec.ofNat 64), BitVec.ofNat_toNat, BitVec.ofNat_toNat, BitVec.setWidth_eq,
    BitVec.setWidth_eq, maxU]

/-- Settles O3: logic bit by bit, shifts by the bit each result bit comes from, minimum and maximum by their cases. -/
theorem logicShiftMinMax : Obligations.LogicShiftMinMax := by
  refine ⟨fun d a b => by simp [decodeA], fun s d a b => ⟨?_, ?_, ?_, ?_, ?_, ?_, ?_, ?_, ?_, ?_, ?_, ?_, ?_, ?_⟩⟩
  · exact ⟨_, completes_and s d a b, fun i hi => BitVec.getLsbD_and⟩
  · exact ⟨_, completes_or s d a b, fun i hi => BitVec.getLsbD_or⟩
  · exact ⟨_, completes_xor s d a b, fun i hi => BitVec.getLsbD_xor⟩
  · exact ⟨_, completes_andn s d a b, fun i hi => getLsbD_and_not _ _ hi⟩
  · exact ⟨_, completes_orn s d a b, fun i hi => getLsbD_or_not _ _ hi⟩
  · exact ⟨_, completes_xnor s d a b, fun i hi => getLsbD_not_xor _ _ hi⟩
  · exact ⟨_, completes_shl s d a b, fun i hi => getLsbD_shiftLeft_quad _ _ hi⟩
  · exact ⟨_, completes_shr s d a b, fun i hi => getLsbD_ushiftRight_quad ..⟩
  · exact ⟨_, completes_sra s d a b, fun i hi => getLsbD_sshiftRight_quad _ _ hi⟩
  · exact ⟨_, completes_rol s d a b, fun i hi => getLsbD_rotateLeft_add _ (count6_lt _) hi⟩
  · exact (completes_smin s d a b).scalar_congr (minS_eq ..)
  · exact (completes_smax s d a b).scalar_congr (maxS_eq ..)
  · exact (completes_umin s d a b).scalar_congr (minU_eq ..)
  · exact (completes_umax s d a b).scalar_congr (maxU_eq ..)

end Sys2Proof.Machine
end

section
/-! PROOF. Bit counts and reversals (R199). -/

namespace Sys2Proof.Machine

/-! ## The highest set bit -/

theorem bitLen_le {n x : Nat} (h : x < 2 ^ n) : bitLen x ≤ n := by
  unfold bitLen
  split
  · exact Nat.zero_le n
  · exact (Nat.log2_lt ‹_›).2 h

theorem bitLen_pos {x : Nat} (h : x ≠ 0) : 0 < bitLen x := by
  rw [bitLen, if_neg h]
  exact Nat.succ_pos _

theorem testBit_bitLen_sub_one {x : Nat} (h : x ≠ 0) : x.testBit (bitLen x - 1) = true := by
  rw [bitLen, if_neg h]
  exact Nat.testBit_log2 h

theorem testBit_of_bitLen_le {x i : Nat} (h : bitLen x ≤ i) : x.testBit i = false := by
  by_cases h0 : x = 0
  · rw [h0, Nat.zero_testBit]
  · rw [bitLen, if_neg h0] at h
    exact Nat.testBit_lt_two_pow (Nat.lt_log2_self.trans_le (Nat.pow_le_pow_right (by decide) h))

/-! ## The lowest set bit -/

theorem trailing_le (n x : Nat) : trailing n x ≤ n := by
  induction n generalizing x with
  | zero => exact le_refl 0
  | succ n ih =>
    rw [trailing]
    split
    · exact Nat.zero_le _
    · exact Nat.succ_le_succ (ih _)

theorem trailing_zero (n : Nat) : trailing n 0 = n := by
  induction n with
  | zero => rfl
  | succ n ih => exact congrArg (· + 1) ih

/-- A number of n bits that is not 0 has a set bit among them. -/
theorem trailing_lt {n x : Nat} (h0 : x ≠ 0) (h : x < 2 ^ n) : trailing n x < n := by
  induction n generalizing x with
  | zero => exact absurd (Nat.lt_one_iff.1 h) h0
  | succ n ih =>
    rw [trailing]
    split
    · exact Nat.succ_pos n
    · exact Nat.succ_lt_succ (ih (by omega) (by omega))

theorem testBit_trailing {n x : Nat} (h : trailing n x < n) : x.testBit (trailing n x) = true := by
  induction n generalizing x with
  | zero => exact absurd h (Nat.not_lt_zero _)
  | succ n ih =>
    rw [trailing] at h ⊢
    split
    · rw [Nat.testBit_zero]
      exact decide_eq_true ‹_›
    · rw [if_neg ‹_›] at h
      rw [Nat.testBit_add_one]
      exact ih (Nat.lt_of_succ_lt_succ h)

theorem testBit_of_lt_trailing {n x i : Nat} (h : i < trailing n x) : x.testBit i = false := by
  induction n generalizing x i with
  | zero => exact absurd h (Nat.not_lt_zero _)
  | succ n ih =>
    rw [trailing] at h
    split at h
    · exact absurd h (Nat.not_lt_zero _)
    · cases i with
      | zero =>
        rw [Nat.testBit_zero]
        exact decide_eq_false ‹_›
      | succ i =>
        rw [Nat.testBit_add_one]
        exact ih (Nat.lt_of_succ_lt_succ h)

/-! ## Counting and reversing bits -/

/-- The sum of n bits is the number of places among them whose bit is set. -/
theorem ones_eq_length_filter (n x : Nat) : ones n x = ((List.range n).filter x.testBit).length := by
  induction n generalizing x with
  | zero => rfl
  | succ n ih =>
    have htail : x.testBit ∘ Nat.succ = (x / 2).testBit := funext fun i => Nat.testBit_add_one x i
    rw [ones, ih, List.range_succ_eq_map, List.filter_cons, List.filter_map, htail, Nat.testBit_zero]
    rcases Nat.mod_two_eq_zero_or_one x with h | h <;> simp [h, Nat.add_comm]

theorem revBits_lt (n x : Nat) : revBits n x < 2 ^ n := by
  induction n generalizing x with
  | zero => exact Nat.one_pos
  | succ n ih =>
    have hlow := ih (x / 2)
    rw [revBits, Nat.pow_succ]
    rcases Nat.mod_two_eq_zero_or_one x with h | h <;> rw [h] <;> omega

/-- The lowest of n + 1 bits becomes the highest; the others are those of the number above it, in reverse. -/
theorem testBit_revBits {n x i : Nat} (h : i < n) : (revBits n x).testBit i = x.testBit (n - 1 - i) := by
  induction n generalizing x i with
  | zero => exact absurd h (Nat.not_lt_zero i)
  | succ n ih =>
    rw [revBits, Nat.mul_comm, Nat.testBit_two_pow_mul_add _ (revBits_lt n (x / 2))]
    split
    · rw [ih ‹_›, ← Nat.testBit_add_one]
      congr 1
      omega
    · obtain rfl : i = n := by omega
      simp [Nat.testBit_zero]

/-! ## Reversing bytes -/

theorem length_bytesOf (n v : Nat) : (bytesOf n v).length = n := by
  induction n generalizing v with
  | zero => rfl
  | succ n ih => exact congrArg (· + 1) (ih _)

theorem toNat_getElem_bytesOf {n v i : Nat} (h : i < (bytesOf n v).length) :
    ((bytesOf n v)[i]).toNat = v / 2 ^ (8 * i) % 2 ^ 8 := by
  induction n generalizing v i with
  | zero => exact absurd h (Nat.not_lt_zero i)
  | succ n ih =>
    cases i with
    | zero => simp [bytesOf]
    | succ i =>
      have hpow : 2 ^ (8 * (i + 1)) = 256 * 2 ^ (8 * i) := by rw [Nat.mul_succ, Nat.pow_add, Nat.mul_comm]
      rw [hpow, ← Nat.div_div_eq_div_mul]
      exact ih _

theorem leNat_lt (bs : List Byte) : leNat bs < 2 ^ (8 * bs.length) := by
  induction bs with
  | nil => exact Nat.one_pos
  | cons b bs ih =>
    have hb := b.isLt
    rw [leNat, List.length_cons, Nat.mul_succ, Nat.pow_add]
    omega

/-- Byte i of the number that bytes make is the i-th of them. -/
theorem leNat_div_mod {bs : List Byte} {i : Nat} (h : i < bs.length) :
    leNat bs / 2 ^ (8 * i) % 2 ^ 8 = bs[i].toNat := by
  induction bs generalizing i with
  | nil => exact absurd h (Nat.not_lt_zero i)
  | cons b bs ih =>
    have hb := b.isLt
    cases i with
    | zero =>
      simp only [leNat, Nat.mul_zero, Nat.pow_zero, Nat.div_one, List.getElem_cons_zero]
      omega
    | succ i =>
      have hpow : 2 ^ (8 * (i + 1)) = 256 * 2 ^ (8 * i) := by rw [Nat.mul_succ, Nat.pow_add, Nat.mul_comm]
      have hrest : leNat (b :: bs) / 256 = leNat bs := by rw [leNat]; omega
      rw [hpow, ← Nat.div_div_eq_div_mul, hrest]
      exact ih (Nat.lt_of_succ_lt_succ h)

/-! ## The five functions -/

section
variable (x : Word)

theorem toNat_ne_zero {x : Word} (h : x ≠ 0) : x.toNat ≠ 0 := fun h0 => h (BitVec.eq_of_toNat_eq h0)

theorem getLsbD_brev64 {i : Nat} (hi : i < 64) : (brev64 x).getLsbD i = x.getLsbD (63 - i) := by
  rw [brev64, word, BitVec.getLsbD_ofNat, decide_eq_true hi, Bool.true_and, testBit_revBits hi, BitVec.testBit_toNat]

theorem byte_bswap64 {i : Nat} (hi : i < 8) :
    (bswap64 x).toNat / 2 ^ (8 * i) % 2 ^ 8 = x.toNat / 2 ^ (8 * (7 - i)) % 2 ^ 8 := by
  have hlen : (bytesOf 8 x.toNat).reverse.length = 8 := by rw [List.length_reverse, length_bytesOf]
  have hlt := leNat_lt (bytesOf 8 x.toNat).reverse
  rw [hlen] at hlt
  rw [bswap64, word, BitVec.toNat_ofNat, Nat.mod_eq_of_lt hlt, leNat_div_mod (by omega), List.getElem_reverse,
    toNat_getElem_bytesOf]
  simp only [length_bytesOf, Nat.add_one_sub_one]

end

/-- Settles O4: CLZ by the highest set bit, CTZ by the lowest, POPC by counting places, the reversals place by place. -/
theorem bitCountsAndReversals : Obligations.BitCountsAndReversals := by
  refine ⟨fun d a b => by simp [decodeA], fun s d a => ⟨?_, ?_, ?_, ?_, ?_⟩⟩
  · have hle := bitLen_le (s.rs a).isLt
    refine ⟨_, Nat.sub_le .., completes_clz s d a, fun h0 => by rw [h0]; rfl, fun h0 => ?_, fun i hi => ?_⟩
    · have hpos := bitLen_pos (toNat_ne_zero h0)
      have htop : 63 - (64 - bitLen (s.rs a).toNat) = bitLen (s.rs a).toNat - 1 := by omega
      exact ⟨by omega, by rw [htop, ← BitVec.testBit_toNat]; exact testBit_bitLen_sub_one (toNat_ne_zero h0)⟩
    · rw [← BitVec.testBit_toNat]
      exact testBit_of_bitLen_le (by omega)
  · refine ⟨_, trailing_le .., completes_ctz s d a, fun h0 => by rw [h0]; exact trailing_zero 64, fun h0 => ?_,
      fun i hi => ?_⟩
    · have hlt := trailing_lt (toNat_ne_zero h0) (s.rs a).isLt
      exact ⟨hlt, by rw [← BitVec.testBit_toNat]; exact testBit_trailing hlt⟩
    · rw [← BitVec.testBit_toNat]
      exact testBit_of_lt_trailing hi
  · refine (completes_popc s d a).scalar_congr ?_
    rw [popc64, word, ones_eq_length_filter]
    rfl
  · exact ⟨_, completes_brev s d a, fun i hi => getLsbD_brev64 _ hi⟩
  · exact ⟨_, completes_bswap s d a, fun i hi => byte_bswap64 _ hi⟩

end Sys2Proof.Machine
end

section
/-! PROOF. Compares, SEL, bitfields, ADDA and predicate moves (R200 to R203, R207). -/

namespace Sys2Proof.Machine

/-! ## Masks (R4) -/

theorem getLsbD_maskOf (lo n i : Nat) : (maskOf lo n).getLsbD i = decide (i < 64 ∧ lo ≤ i ∧ i < lo + n) := by
  rw [maskOf, BitVec.getLsbD_ofNat, Nat.testBit_mul_two_pow, Nat.testBit_two_pow_sub_one, Bool.eq_iff_iff]
  simp only [Bool.and_eq_true, decide_eq_true_eq]
  omega

/-- Each bit of a merge comes from the word that the mask chooses. -/
theorem getLsbD_mergeMask (m v w : Word) {i : Nat} (hi : i < 64) :
    (mergeMask m v w).getLsbD i = if m.getLsbD i then v.getLsbD i else w.getLsbD i := by
  rw [mergeMask, BitVec.getLsbD_or, BitVec.getLsbD_and, BitVec.getLsbD_and, BitVec.getLsbD_not, decide_eq_true hi]
  cases m.getLsbD i <;> simp

/-! ## Bitfields (R202) -/

section
variable (x y : Word)

theorem fld_pos_eq : fld 0 6 y = y.toNat % 64 := by
  rw [fld, Nat.pow_zero, Nat.div_one]
  rfl

theorem flag_eq_getLsbD (lo : Nat) : flag lo y = y.getLsbD lo := by
  rw [← BitVec.testBit_toNat, Nat.testBit_eq_decide_div_mod_eq]
  rfl

/-- The field of x that y names, before it is extended. -/
theorem bfxOf_eq : bfxOf x y =
    if fieldLen y = 0 then 0
    else if y.getLsbD 16 then sextWord (fieldLen y) (x.toNat / 2 ^ (y.toNat % 64) % 2 ^ fieldLen y)
    else word (x.toNat / 2 ^ (y.toNat % 64) % 2 ^ fieldLen y) := by
  rw [bfxOf, fld_pos_eq, flag_eq_getLsbD]

theorem bfxOf_empty (h : fieldLen y = 0) : bfxOf x y = 0 := by
  rw [bfxOf_eq, if_pos h]

/-- An empty field is the number 0, so zero extension needs no case of its own. -/
theorem bfxOf_unsigned (h : y.getLsbD 16 = false) :
    bfxOf x y = BitVec.ofNat 64 (x.toNat / 2 ^ (y.toNat % 64) % 2 ^ fieldLen y) := by
  rw [bfxOf_eq, h]
  split
  · rw [‹fieldLen y = 0›, Nat.pow_zero, Nat.mod_one]
    rfl
  · rfl

theorem bfxOf_signed (h0 : 0 < fieldLen y) (h : y.getLsbD 16 = true) :
    bfxOf x y = BitVec.ofInt 64 (sextNat (fieldLen y) (x.toNat / 2 ^ (y.toNat % 64) % 2 ^ fieldLen y)) := by
  rw [bfxOf_eq, if_neg (Nat.ne_of_gt h0), if_pos h, sextWord]

/-- A number of n bits as the signed number of its bits. -/
theorem sextNat_mod (n f : Nat) :
    sextNat n (f % 2 ^ n) =
      if f % 2 ^ n < 2 ^ (n - 1) then ((f % 2 ^ n : Nat) : Int) else (f % 2 ^ n : Nat) - 2 ^ n := by
  rw [sextNat, Nat.mod_mod]
  push_cast
  rfl

/-- BFI puts the low bits of x at pos and keeps w elsewhere; its mask ends at bit 63. -/
theorem getLsbD_bfiOf (w : Word) {i : Nat} (hi : i < 64) :
    (bfiOf w x y).getLsbD i = if y.toNat % 64 ≤ i ∧ i < y.toNat % 64 + fieldLen y then x.getLsbD (i - y.toNat % 64)
      else w.getLsbD i := by
  rw [bfiOf, fld_pos_eq, ← maskOf, getLsbD_mergeMask _ _ _ hi, getLsbD_maskOf]
  simp only [hi, true_and, decide_eq_true_eq]
  split
  · next h =>
    rw [BitVec.getLsbD_ofNat, Nat.testBit_mul_two_pow, decide_eq_true hi, decide_eq_true h.1, Bool.true_and,
      Bool.true_and, BitVec.testBit_toNat]
  · rfl

/-! ## Addresses (R203) -/

/-- The offset of 41 bits moves and wraps; device and region stay. -/
theorem effAddr_toNat : (effAddr x y).toNat = x.toNat / 2 ^ 41 * 2 ^ 41 + (x.toNat + y.toNat) % 2 ^ 41 := by
  apply Nat.eq_of_testBit_eq
  intro i
  rw [Nat.mul_comm, Nat.testBit_two_pow_mul_add _ (Nat.mod_lt _ (by decide)), BitVec.testBit_toNat]
  by_cases hi : i < 64
  · rw [effAddr, getLsbD_mergeMask _ _ _ hi, getLsbD_maskOf]
    by_cases hlow : i < 41
    · have hmask : i < 64 ∧ 0 ≤ i ∧ i < 0 + 41 := by omega
      rw [decide_eq_true hmask, if_pos rfl, if_pos hlow, ← BitVec.testBit_toNat, BitVec.toNat_add,
        Nat.testBit_mod_two_pow, Nat.testBit_mod_two_pow, decide_eq_true hi, decide_eq_true hlow]
    · have hmask : ¬ (i < 64 ∧ 0 ≤ i ∧ i < 0 + 41) := by omega
      rw [decide_eq_false hmask, if_neg Bool.false_ne_true, if_neg hlow, Nat.testBit_div_two_pow, BitVec.testBit_toNat,
        Nat.sub_add_cancel (by omega)]
  · rw [if_neg (by omega), Nat.testBit_div_two_pow, BitVec.testBit_toNat, BitVec.getLsbD_of_ge _ _ (by omega),
      BitVec.getLsbD_of_ge _ _ (by omega)]

end

/-! ## Comparisons and predicate moves -/

/-- R200: each comparison is the relation of the operands as numbers. -/
theorem compares_complete (s : State) (d : PReg) (a b : SReg) :
    Completes (.cmpEq d a b) s (pres 1 d (decide ((s.rs a).toNat = (s.rs b).toNat))) ∧
    Completes (.cmpNe d a b) s (pres 1 d (!decide ((s.rs a).toNat = (s.rs b).toNat))) ∧
    Completes (.cmpLt d a b) s (pres 1 d (decide ((s.rs a).toInt < (s.rs b).toInt))) ∧
    Completes (.cmpLe d a b) s (pres 1 d (!decide ((s.rs b).toInt < (s.rs a).toInt))) ∧
    Completes (.cmpLtu d a b) s (pres 1 d (decide ((s.rs a).toNat < (s.rs b).toNat))) ∧
    Completes (.cmpLeu d a b) s (pres 1 d (!decide ((s.rs b).toNat < (s.rs a).toNat))) := by
  have heq : (s.rs a == s.rs b) = decide ((s.rs a).toNat = (s.rs b).toNat) := by
    rw [beq_eq_decide, decide_eq_decide, BitVec.toNat_inj]
  refine ⟨(completes_cmpEq ..).pred_congr heq, (completes_cmpNe ..).pred_congr (congrArg not heq), completes_cmpLt ..,
    (completes_cmpLe ..).pred_congr ?_, completes_cmpLtu .., (completes_cmpLeu ..).pred_congr ?_⟩
  · rw [← decide_not, decide_eq_decide, Int.not_lt]
  · rw [← decide_not, decide_eq_decide, Nat.not_lt]

/-- R207: a predicate as 0 or 1, a scalar as its test against 0, and the logic of predicates. -/
theorem predicateMoves_complete (s : State) :
    (∀ (d : SReg) (a : PReg), Completes (.movpToScalar d a) s (sres 1 d (BitVec.ofNat 64 (s.rp a).toNat))) ∧
    (∀ (d : PReg) (a : SReg), Completes (.movpToPred d a) s (pres 1 d (decide ((s.rs a).toNat ≠ 0)))) ∧
    (∀ d a b : PReg, Completes (.movpAnd d a b) s (pres 1 d (decide (s.rp a = true ∧ s.rp b = true)))) ∧
    (∀ d a b : PReg, Completes (.movpOr d a b) s (pres 1 d (decide (s.rp a = true ∨ s.rp b = true)))) ∧
    (∀ d a b : PReg, Completes (.movpXor d a b) s (pres 1 d (decide (¬ s.rp a = s.rp b)))) ∧
    (∀ d a : PReg, Completes (.movpNot d a) s (pres 1 d (decide (s.rp a = false)))) := by
  refine ⟨fun d a => (completes_movpToScalar ..).scalar_congr ?_, fun d a => (completes_movpToPred ..).pred_congr ?_,
    fun d a b => (completes_movpAnd ..).pred_congr ?_, fun d a b => (completes_movpOr ..).pred_congr ?_,
    fun d a b => (completes_movpXor ..).pred_congr ?_, fun d a => (completes_movpNot ..).pred_congr ?_⟩
  · cases s.rp a <;> rfl
  · rw [bne, beq_eq_decide, ← decide_not, decide_eq_decide, ← BitVec.toNat_inj]
    rfl
  · cases s.rp a <;> cases s.rp b <;> rfl
  · cases s.rp a <;> cases s.rp b <;> rfl
  · cases s.rp a <;> cases s.rp b <;> rfl
  · cases s.rp a <;> rfl

/-- Settles O5: BFX by its three cases, BFI and ADDA as merges under a mask, the rest by the relation they test. -/
theorem comparesSelectsAndFields : Obligations.ComparesSelectsAndFields := by
  refine ⟨fun d a b => ⟨fun fn hfn => ?_, ?_⟩, compares_complete, fun s d a b => ⟨fun h => ?_, fun h => ?_, fun h => ?_,
    fun h => ?_, fun h0 h => ?_, ?_, ?_⟩, predicateMoves_complete⟩
  · simp (disch := omega) [decodeA]
  · simp [decodeA]
  · exact (completes_sel s d a b).scalar_congr (if_pos h)
  · exact (completes_sel s d a b).scalar_congr (if_neg (not_not.2 h))
  · exact (completes_bfx s d a b).scalar_congr (bfxOf_empty _ _ h)
  · exact (completes_bfx s d a b).scalar_congr (bfxOf_unsigned _ _ h)
  · exact (completes_bfx s d a b).scalar_congr ((bfxOf_signed _ _ h0 h).trans (congrArg _ (sextNat_mod ..)))
  · exact ⟨_, completes_bfi s d a b, fun i hi => getLsbD_bfiOf _ _ _ hi⟩
  · exact ⟨_, completes_adda s d a b, effAddr_toNat ..⟩

end Sys2Proof.Machine
end
